-- ==== Sys2Proof/Word.lean ====
section
/-! DEFINITION. The widths of the block's values (00_scope.md R7, R8; 10_state.md R23). -/

namespace Sys2Proof

/-- The unit of the link: `BYTE` = 8 bits (R7, R8). -/
abbrev Byte := BitVec 8

/-- A device number: `ID_W` = 16 bits (R7). A 1-byte ID is zero-extended (R77). -/
abbrev DevId := BitVec 16

/-- A declared payload size, 17 bits (R23, R78). -/
abbrev Size := BitVec 17

/-- The one addressed store of the block, `BUF`: cells (offset, byte) in the canonical form
`Memory.wf` (R50; log 14). -/
abbrev Memory := List Host.Cell

end Sys2Proof
end

