-- ==== Sys2Proof/Config.lean ====
section
/-! DEFINITION. What an installation fixes (00_scope.md R7, the `OPEN` parameters) and the free values. -/

namespace Sys2Proof

/-- The two admissible values of `TX_SIZE16_THRESHOLD` (R7, decision D9). -/
inductive Threshold where
  | t255
  | t256
deriving DecidableEq, Repr, Inhabited

/-- The parameters that are constants of a run (R7, R34): the registry's domain `REG` (only membership
matters), `TX_DIR_BIT` and `TX_SIZE16_THRESHOLD`. `T_ACK` has no effect in an untimed model (log 7). -/
structure Params where
  reg : List DevId
  txDirBit : Bool
  threshold : Threshold
deriving DecidableEq, Repr, Inhabited

/-- The parameters of the installation at hand. The spec leaves all three open (R7, U1, U2, U13), so
they have no value here: a claim holds for every choice (log 6). Safe. -/
opaque Config.params : Params

/-- `TX_ROUND` after RESET, "unspecified" (R41), treatment "any value" (U11): a free value (log 5). Safe. -/
opaque Config.freeRound : Nat → BitVec 3

/-- `TX_HDR` after RESET, "unspecified" (R41), treatment "any value" (U11): a free value (log 5). Safe. -/
opaque Config.freeHdr : Nat → List Byte

/-- `TX_DAT` after RESET, "unspecified" (R41), treatment "any value" (U11): a free value (log 5). Safe. -/
opaque Config.freeDat : Nat → List Byte

end Sys2Proof
end

