-- ==== Sys2Proof/Syntax.lean ====
section
/-! DEFINITION. The instructions: one constructor per row of spec/opcode_table.json (35 rows). -/

namespace Sys2Proof

/-- The block's instructions (00_scope.md section 5: an instruction is what the block consumes).
The nine control bytes (30_encoding.md R71) and the six frame layouts (R72, R73, R76) are consumed from
the head of `RXQ`; the twenty events are the rows of the event decode table (R89). An operand `b` is the
byte the event consumes. -/
inductive Instr where
  /- control bytes, R71 -/
  | sel
  | soh
  | stx
  | etx
  | eot
  | enq
  | ack
  | wait
  | nak
  /- frames: every field of the layout is an operand, the checksum and the untested bytes too -/
  | select (slave master term : Byte)
  | headerI8S8 (rsv : BitVec 5) (dir : Bool) (dest src fnc size1 cks : Byte)
  | headerI8S16 (rsv : BitVec 5) (dir : Bool) (dest src fnc : Byte) (size1 : BitVec 16) (cks : Byte)
  | headerI16S8 (rsv : BitVec 5) (dir : Bool) (dest src : DevId) (fnc size1 cks : Byte)
  | headerI16S16 (rsv : BitVec 5) (dir : Bool) (dest src : DevId) (fnc : Byte) (size1 : BitVec 16) (cks : Byte)
  | data (payload : List Byte) (etx cks : Byte)
  /- receive events, files 40, 41, 42 -/
  | rxIdleSel
  | rxIdleSoh
  | rxIdleOther (b : Byte)
  | rxSelectByte (b : Byte)
  | rxHeaderByte (b : Byte)
  | rxHcStx
  | rxHcOther (b : Byte)
  | rxDataByte (b : Byte)
  | rxAeEnq
  | rxAeEot
  | rxAeOther (b : Byte)
  /- device commands and the sender's events, files 42, 43 -/
  | cmdDone
  | cmdSend (dest src : DevId) (fnc : Byte) (size : Size) (bytes : List Byte)
  | txHdrAck
  | txHdrOther (b : Byte)
  | txTimeout
  | txDataAck
  | txDataOther (b : Byte)
  /- environment events, files 60, 70 -/
  | envLinkFail
  | envReset
deriving DecidableEq, Repr

end Sys2Proof
end

