-- ==== Sys2Proof/Machine/State.lean ====
section
/-! DEFINITION. The machine's state as plain data (10_state.md), its reset value (R41), the ways a step can stop. -/

namespace Sys2Proof.Machine

/-- `RXS`, the parse state, in the spec's order (R21). -/
inductive RxState where
  | idle
  | select
  | header
  | headerComplete
  | data
  | awaitingEnd
deriving DecidableEq, Repr

/-- `TXS`, the sender's phase (R31). -/
inductive TxState where
  | txIdle
  | txHdrWait
  | txDataWait
deriving DecidableEq, Repr

/-- `TX_STATUS`, the result of the last finished SEND (R30). -/
inductive TxStatus where
  | none
  | ok
  | fail
deriving DecidableEq, Repr

/-- The header latch file `x[DID]`, `x[SID]`, `x[FNC]`, `x[SIZE]`, written together (R23). -/
structure HeaderLatch where
  did : DevId
  sid : DevId
  fnc : Byte
  size : Size
deriving DecidableEq, Repr

/-- A record of the `REQ` port (R42, R150). -/
structure Request where
  did : DevId
  sid : DevId
  fnc : Byte
  size : Size
  payload : List Byte
deriving DecidableEq, Repr

/-- Direction of a byte in `MON` (R35). -/
inductive Dir where
  | rx
  | tx
deriving DecidableEq, Repr

/-- The nine errors of R200 with the value each records. -/
inductive LinkError where
  /-- E1, with the sum. -/
  | headerChecksum (sum : Byte)
  /-- E2, with the sum. -/
  | dataChecksum (sum : Byte)
  /-- E3, with the byte. -/
  | unassociated (b : Byte)
  /-- E4, with the byte. -/
  | outOfBand (b : Byte)
  /-- E5, with the byte. -/
  | unexpectedInAwaitingEnd (b : Byte)
  /-- E6, with the ID. -/
  | unregistered (id : DevId)
  /-- E7, with the byte. -/
  | unexpectedHandshake (b : Byte)
  /-- E8, with the phase. -/
  | sendFailure (phase : TxState)
  /-- E9, no value. -/
  | linkFailure
deriving DecidableEq, Repr

/-- An entry of `DIAG` (R35, R200): an error, or the sender's "no answer" report, which carries the byte
(R177, R180) or stands for the timeout (R178). -/
inductive Report where
  | error (e : LinkError)
  | noAnswer (b : Byte)
  | noAnswerTimeout
deriving DecidableEq, Repr

/-- The commands that reach the framer on a port without a byte: the device's SEND and DONE (R37), the
environment's TIMEOUT, LINK_FAIL and RESET (R38). -/
inductive Command where
  | done
  | send (dest src : DevId) (fnc : Byte) (size : Size) (bytes : List Byte)
  | timeout
  | linkFail
  | reset
deriving DecidableEq, Repr

/-- How much of `RXQ` the framer's turn consumes: one byte as an event of R89, one byte read as a control
byte of R71, or one whole frame of R70 (log 2). -/
inductive Grain where
  | event
  | control
  | frame
deriving DecidableEq, Repr

/-- One turn of one agent (R20): the master appends a byte (R36), the framer consumes from `RXQ` (R10), or a
command arrives (R37, R38). -/
inductive Turn where
  | arrive (b : Byte)
  | receive (g : Grain)
  | command (c : Command)
deriving DecidableEq, Repr

/-- The state of the block (10_state.md sections 2 to 6 and 9), with two fields of the model's own:
`script`, which agent moves next (log 1), and `freeCount`, which the free values are applied to (log 5). -/
structure State where
  /-- `RXS` (R21). -/
  rxs : RxState
  /-- `BUF` (R22, R50). -/
  buf : Memory
  /-- The header latches; `none` is the spec's own value `unwritten` (R24). -/
  latches : Option HeaderLatch
  /-- `RXQ` (R26), head first. -/
  rxq : List Byte
  /-- `TXOUT` (R27), oldest first. -/
  txOut : List Byte
  /-- `BUSY` (R28). -/
  busy : Bool
  /-- `ALIVE` (R29). -/
  alive : Bool
  /-- `TX_STATUS` (R30). -/
  txStatus : TxStatus
  /-- `TXS` (R31). -/
  txs : TxState
  /-- `TX_ROUND` (R32). -/
  txRound : BitVec 3
  /-- `TX_HDR` (R33). -/
  txHdr : List Byte
  /-- `TX_DAT` (R33). -/
  txDat : List Byte
  /-- `REG`, `TX_DIR_BIT`, `TX_SIZE16_THRESHOLD` (R7, R34). -/
  cfg : Params
  /-- `MON` (R35, R217), oldest first. -/
  mon : List (Dir × Byte)
  /-- `DIAG` (R35), oldest first. -/
  diag : List Report
  /-- The records put on the `REQ` port (R42, R150), oldest first. -/
  reqOut : List Request
  /-- The transfers on the `STATUS` port (R42), oldest first. -/
  statusOut : List TxStatus
  /-- The MODEL's own: the turns to come. -/
  script : List Turn
  /-- The MODEL's own: how many free values have been drawn. -/
  freeCount : Nat
deriving DecidableEq, Repr

/-- The state after reset (R41). `TX_ROUND`, `TX_HDR`, `TX_DAT`, "unspecified", have values the model names
(DESIGN CHOICE, log 4); the traces start empty (log 8); the parameters are those of the installation (log 6). -/
def State.reset : State where
  rxs := .idle
  buf := []
  latches := none
  rxq := []
  txOut := []
  busy := false
  alive := true
  txStatus := .none
  txs := .txIdle
  txRound := 0#3
  txHdr := []
  txDat := []
  cfg := Config.params
  mon := []
  diag := []
  reqOut := []
  statusOut := []
  script := []
  freeCount := 0

/-- Why a step stops with a fault. Both are accesses outside `BUF`; neither happens in a state that meets
the invariant of R40. -/
inductive Fault where
  /-- A field read at or above `len(BUF)`, where `MemRead` is not defined (R9). Raised by the field reads of
  Select, Header and dispatch. Safe. -/
  | bufferRead
  /-- An append at `BUF_CAP`, outside the offsets 0..65538 of R50. Raised by `appendByte`. Safe. -/
  | bufferFull
deriving DecidableEq, Repr

/-- Why the decoder rejects what a turn of the framer offers it. -/
inductive Reject where
  /-- `RXQ` is empty: no framer step is enabled (R100, R218, R252). -/
  | noByteQueued
  /-- A byte is queued but nobody consumes it: an open window without a SEND, or `ALIVE = 0` (R43). -/
  | noConsumer
  /-- The byte is none of the nine control bytes (R71). -/
  | notControlByte (b : Byte)
  /-- The byte opens no frame (R70). -/
  | notFrameMarker (b : Byte)
  /-- The frame is longer than what is queued (R88). -/
  | frameIncomplete
  /-- A data frame's length is the latched size, and the latches are `unwritten` (R88, R24). -/
  | noDeclaredSize
  /-- A data frame of declared size 0 or above 65536, which no header can declare (R78). -/
  | badDeclaredSize
deriving DecidableEq, Repr

/-- Why a step is refused. -/
inductive Refusal where
  /-- No meaning yet; raised only by an arm of `exec` (none is left). Safe. -/
  | notModelled (mnemonic : String)
  /-- The event's rule is not enabled in this state: it "has no step: a model refuses it" (R11). Raised by
  every meaning. Safe. -/
  | notEnabled
  /-- A SEND whose operands are outside the ranges of R171 (U8). Raised by `execCmdSend`. Safe. -/
  | sendOperands
  /-- A latch was read while `unwritten`: "a model must refuse it" (R9). Raised by the Data length test and by
  dispatch; unreachable under R40. Safe. -/
  | unwrittenLatch
  /-- The framer's turn finds nothing it can consume, so no step exists (R11, R43). Raised by `step`. Safe. -/
  | noStep (why : Reject)
  /-- The master moves only while `ALIVE = 1` (R36). Raised by `step`. Safe. -/
  | masterMoveWhileDead
deriving DecidableEq, Repr

/-- What a step answers. -/
abbrev Result := Host.Outcome State Fault Refusal

end Sys2Proof.Machine
end

