-- ==== Sys2Proof/Machine/Operands.lean ====
section
/-! DEFINITION. Control bytes, byte order, checksum arithmetic, the accesses to `BUF`, the field layouts of the
frames, and the frames a SEND builds (20_memory.md, 30_encoding.md, 43_tx_send.md R173, R174). No state is read. -/

namespace Sys2Proof.Machine

/-! ### Control bytes (R71) and constants (R7) -/

abbrev SEL : Byte := 0x31#8
abbrev SOH : Byte := 0x01#8
abbrev STX : Byte := 0x02#8
abbrev ETX : Byte := 0x03#8
abbrev EOT : Byte := 0x04#8
abbrev ENQ : Byte := 0x05#8
abbrev ACK : Byte := 0x06#8
abbrev WAIT : Byte := 0x10#8
abbrev NAK : Byte := 0x15#8

/-- `BUF_CAP` (R7, R22). -/
abbrev bufCap : Nat := 65539

/-- `TX_ROUNDS` (R7, R32). -/
abbrev txRounds : BitVec 3 := 4#3

/-- The register value of `RXS`: 0 to 5 in the order of R21. -/
def rxCode : RxState → BitVec 3
  | .idle => 0#3
  | .select => 1#3
  | .header => 2#3
  | .headerComplete => 3#3
  | .data => 4#3
  | .awaitingEnd => 5#3

/-- The register value of `TXS`: 0, 1, 2 (R31). -/
def txCode : TxState → BitVec 2
  | .txIdle => 0#2
  | .txHdrWait => 1#2
  | .txDataWait => 2#2

/-! ### Byte order (R51, R52) -/

/-- The more significant byte of a 2-byte field. -/
def hiByte (v : BitVec 16) : Byte := v.extractLsb' 8 8

/-- The less significant byte of a 2-byte field. -/
def loByte (v : BitVec 16) : Byte := v.extractLsb' 0 8

/-- A 2-byte field, big-endian: the byte received first is the more significant. -/
def be16 (hi lo : Byte) : BitVec 16 := hi ++ lo

/-- `zext_16` of a 1-byte field (R77). -/
def zext16 (b : Byte) : BitVec 16 := b.zeroExtend 16

/-! ### Checksum (R80, R81) -/

/-- `sum8`: the sum of the bytes modulo 256. -/
def sum8 : List Byte → Byte
  | [] => 0#8
  | b :: bs => b + sum8 bs

/-- `cks`: `(256 - sum8 s) mod 256`. -/
def cks (s : List Byte) : Byte := BitVec.ofNat 8 ((256 - (sum8 s).toNat) % 256)

/-- A frame: its body with the checksum at the end. -/
def withCks (body : List Byte) : List Byte := body ++ [cks body]

/-! ### The `fmt` byte (R74) and the header length (R75) -/

/-- `fmt[1:1]`: the size field has 2 bytes. -/
def fmtS16 (fmt : Byte) : Bool := fmt.getLsbD 1

/-- `fmt[2:2]`: the ID fields have 2 bytes each. -/
def fmtI16 (fmt : Byte) : Bool := fmt.getLsbD 2

/-- `hdr_len(fmt) = 7 + fmt[1:1] + 2 * fmt[2:2]`. -/
def hdrLen (fmt : Byte) : Nat := 7 + (fmtS16 fmt).toNat + 2 * (fmtI16 fmt).toNat

end Sys2Proof.Machine

/-! ### `BUF` (R50, R57, R58) -/

namespace Sys2Proof

/-- The canonical form: the offsets are 0, 1, 2, … in this order, so they rise strictly and none is missing
below `len(BUF)`; an unlisted offset holds no byte (log 14). -/
abbrev Memory.wf (m : Memory) : Prop := m.map Prod.fst = List.range m.length

/-- The bytes of the buffer in arrival order. -/
def Memory.bytes (m : Memory) : List Byte := m.map Prod.snd

/-- `MemRead(a, 1)`: defined only for a listed offset (R9). -/
def Memory.read : Memory → Nat → Option Byte
  | [], _ => none
  | (k, b) :: m, a => if k = a then some b else Memory.read m a

/-- `BUF[a .. a+n-1]` in order. -/
def Memory.readSeq (m : Memory) : Nat → Nat → Option (List Byte)
  | _, 0 => some []
  | a, n + 1 =>
    match m.read a, m.readSeq (a + 1) n with
    | some b, some bs => some (b :: bs)
    | _, _ => none

/-- `MemWrite(len(BUF), 1, b)`: the one write (R9, R57). -/
def Memory.append (m : Memory) (b : Byte) : Memory := m ++ [(m.length, b)]

/-- A buffer that holds the given bytes from offset 0 on. -/
def Memory.ofBytes (bs : List Byte) : Memory := bs.zipIdx.map fun p => (p.2, p.1)

/-- A field of 2 bytes big-endian or of 1 byte zero-extended (R58). -/
def Memory.readField (m : Memory) (a : Nat) (wide : Bool) : Option (BitVec 16) :=
  if wide then
    match m.read a, m.read (a + 1) with
    | some hi, some lo => some (Machine.be16 hi lo)
    | _, _ => none
  else
    (m.read a).map Machine.zext16

end Sys2Proof

namespace Sys2Proof.Machine

/-! ### The fields of a complete header (R55, R77, R78, R121) -/

/-- `size = field + 1` in 17 bits (R78). -/
def sizeOfField (field : BitVec 16) : Size := field.zeroExtend 17 + 1#17

/-- The latches a complete header frame in `BUF` gives (R121). -/
def headerLatch (m : Memory) : Option HeaderLatch :=
  match m.read 1 with
  | none => none
  | some fmt =>
    let wide := fmtI16 fmt
    let i := wide.toNat
    match m.readField 2 wide, m.readField (3 + i) wide, m.read (4 + 2 * i),
        m.readField (5 + 2 * i) (fmtS16 fmt) with
    | some did, some sid, some fnc, some field => some ⟨did, sid, fnc, sizeOfField field⟩
    | _, _, _, _ => none

/-! ### Frames as bytes (R72, R73, R76, R91) -/

/-- `id(v)` of R91, `idb(v)` of R173. -/
def idBytes (wide : Bool) (v : DevId) : List Byte := if wide then [hiByte v, loByte v] else [loByte v]

/-- `sz(v)` of R91, `szb(v)` of R173. -/
def szBytes (wide : Bool) (v : BitVec 16) : List Byte := if wide then [hiByte v, loByte v] else [loByte v]

/-- A header frame without its checksum; `field` is the size minus one. -/
def headerBody (fmt : Byte) (dest src : DevId) (fnc : Byte) (field : BitVec 16) : List Byte :=
  [SOH, fmt] ++ idBytes (fmtI16 fmt) dest ++ idBytes (fmtI16 fmt) src ++ [fnc] ++ szBytes (fmtS16 fmt) field

/-- A data frame without its checksum. -/
def dataBody (payload : List Byte) : List Byte := [STX] ++ payload ++ [ETX]

/-! ### The frames of a SEND (R173, R174) -/

/-- The operand ranges of R171 that the operand widths do not already give. -/
def sendOperandsOk (size : Size) (bytes : List Byte) : Bool :=
  decide (1 ≤ size.toNat) && decide (size.toNat ≤ 65536) && decide (bytes.length = size.toNat)

/-- The number `TX_SIZE16_THRESHOLD` stands for (R7). -/
def thresholdNat : Threshold → Nat
  | .t255 => 255
  | .t256 => 256

/-- `I` of R173: one bit widens both IDs. -/
def sendI16 (dest src : DevId) : Bool := decide (255 < dest.toNat) || decide (255 < src.toNat)

/-- `S` of R173. -/
def sendS16 (p : Params) (size : Size) : Bool := decide (thresholdNat p.threshold < size.toNat)

/-- `fmt` of R173: `TX_DIR_BIT + 2*S + 4*I`, bits 3 to 7 are 0. -/
def sendFmt (p : Params) (dest src : DevId) (size : Size) : Byte :=
  BitVec.ofNat 8 (p.txDirBit.toNat + 2 * (sendS16 p size).toNat + 4 * (sendI16 dest src).toNat)

/-- `size - 1` as a 16-bit field (R83: no borrow for a legal size). -/
def fieldOfSize (size : Size) : BitVec 16 := (size - 1#17).setWidth 16

/-- `TX_HDR` (R173). -/
def sendHeader (p : Params) (dest src : DevId) (fnc : Byte) (size : Size) : List Byte :=
  withCks (headerBody (sendFmt p dest src size) dest src fnc (fieldOfSize size))

/-- `TX_DAT` (R174). -/
def sendData (bytes : List Byte) : List Byte := withCks (dataBody bytes)

end Sys2Proof.Machine
end

