-- ==== Sys2Proof/WellFormed.lean ====
section
/-! DEFINITION. Which terms of `Instr` stand for an instruction of the spec. -/

namespace Sys2Proof

/-- The operand checks. A default row of the event table excludes the bytes of the rows above it
(opcode_table.json "except_bytes", R89); a data frame carries 1 to 65536 payload bytes (R76, R78); a SEND's
operands are those of R171. Everything else is well-formed with any operand, a wrong checksum and set
`fmt` bits 3 to 7 included (R84, R87). -/
def Instr.wf : Instr → Bool
  | .rxIdleOther b => b != 0x31#8 && b != 0x01#8
  | .rxHcOther b => b != 0x02#8
  | .rxAeOther b => b != 0x05#8 && b != 0x04#8
  | .txHdrOther b => b != 0x06#8
  | .txDataOther b => b != 0x06#8
  | .data payload _ _ => decide (1 ≤ payload.length) && decide (payload.length ≤ 65536)
  | .cmdSend _ _ _ size bytes =>
      decide (1 ≤ size.toNat) && decide (size.toNat ≤ 65536) && decide (bytes.length = size.toNat)
  | .sel => true
  | .soh => true
  | .stx => true
  | .etx => true
  | .eot => true
  | .enq => true
  | .ack => true
  | .wait => true
  | .nak => true
  | .select _ _ _ => true
  | .headerI8S8 _ _ _ _ _ _ _ => true
  | .headerI8S16 _ _ _ _ _ _ _ => true
  | .headerI16S8 _ _ _ _ _ _ _ => true
  | .headerI16S16 _ _ _ _ _ _ _ => true
  | .rxIdleSel => true
  | .rxIdleSoh => true
  | .rxSelectByte _ => true
  | .rxHeaderByte _ => true
  | .rxHcStx => true
  | .rxDataByte _ => true
  | .rxAeEnq => true
  | .rxAeEot => true
  | .cmdDone => true
  | .txHdrAck => true
  | .txTimeout => true
  | .txDataAck => true
  | .envLinkFail => true
  | .envReset => true

end Sys2Proof
end

