-- ==== Sys2Proof/Decode.lean ====
section
/-! DEFINITION. The decoder, total on any bytes and rejecting by name, and the encoder (30_encoding.md R70 to R76, R88, R89). -/

namespace Sys2Proof

open Machine (RxState TxState Command Grain Reject)

/-- Who consumes the next byte (10_state.md R43). -/
inductive Consumer where
  | parser (r : RxState)
  | hdrWait
  | dataWait
  /-- An open window with no SEND in progress. -/
  | window
  /-- `ALIVE = 0`. -/
  | dead
deriving DecidableEq, Repr

/-- What reaches the framer at a turn: link bytes, head first, or a command, which has no byte
(opcode_table.json: "no byte: device command …"). -/
inductive Cue where
  | link (bs : List Byte)
  | command (c : Command)
deriving DecidableEq, Repr

/-- The decoder's answer. -/
inductive Decoded where
  | instr (i : Instr)
  | reject (why : Reject)
deriving DecidableEq, Repr

/-- The event one byte is, by the consumer's state (R89). -/
def decodeEvent (c : Consumer) (b : Byte) : Decoded :=
  match c with
  | .parser .idle =>
      if b = 0x31#8 then .instr .rxIdleSel else if b = 0x01#8 then .instr .rxIdleSoh else .instr (.rxIdleOther b)
  | .parser .select => .instr (.rxSelectByte b)
  | .parser .header => .instr (.rxHeaderByte b)
  | .parser .headerComplete => if b = 0x02#8 then .instr .rxHcStx else .instr (.rxHcOther b)
  | .parser .data => .instr (.rxDataByte b)
  | .parser .awaitingEnd =>
      if b = 0x05#8 then .instr .rxAeEnq else if b = 0x04#8 then .instr .rxAeEot else .instr (.rxAeOther b)
  | .hdrWait => if b = 0x06#8 then .instr .txHdrAck else .instr (.txHdrOther b)
  | .dataWait => if b = 0x06#8 then .instr .txDataAck else .instr (.txDataOther b)
  | .window => .reject .noConsumer
  | .dead => .reject .noConsumer

/-- The control byte a byte is (R71). -/
def decodeControl (b : Byte) : Decoded :=
  if b = 0x31#8 then .instr .sel
  else if b = 0x01#8 then .instr .soh
  else if b = 0x02#8 then .instr .stx
  else if b = 0x03#8 then .instr .etx
  else if b = 0x04#8 then .instr .eot
  else if b = 0x05#8 then .instr .enq
  else if b = 0x06#8 then .instr .ack
  else if b = 0x10#8 then .instr .wait
  else if b = 0x15#8 then .instr .nak
  else .reject (.notControlByte b)

/-- `fmt` bits 7 to 3. -/
def fmtRsv (fmt : Byte) : BitVec 5 := fmt.extractLsb' 3 5

/-- `fmt` bit 0. -/
def fmtDir (fmt : Byte) : Bool := fmt.getLsbD 0

/-- A header frame from the bytes after the marker (R73): the four layouts by `fmt` bits 2 and 1. -/
def decodeHeader (bs : List Byte) : Decoded :=
  match bs with
  | [] => .reject .frameIncomplete
  | fmt :: rest =>
    match Machine.fmtI16 fmt, Machine.fmtS16 fmt, rest with
    | false, false, d :: s :: n :: z :: c :: _ =>
        .instr (.headerI8S8 (fmtRsv fmt) (fmtDir fmt) d s n z c)
    | false, true, d :: s :: n :: z1 :: z0 :: c :: _ =>
        .instr (.headerI8S16 (fmtRsv fmt) (fmtDir fmt) d s n (Machine.be16 z1 z0) c)
    | true, false, d1 :: d0 :: s1 :: s0 :: n :: z :: c :: _ =>
        .instr (.headerI16S8 (fmtRsv fmt) (fmtDir fmt) (Machine.be16 d1 d0) (Machine.be16 s1 s0) n z c)
    | true, true, d1 :: d0 :: s1 :: s0 :: n :: z1 :: z0 :: c :: _ =>
        .instr (.headerI16S16 (fmtRsv fmt) (fmtDir fmt) (Machine.be16 d1 d0) (Machine.be16 s1 s0) n
          (Machine.be16 z1 z0) c)
    | _, _, _ => .reject .frameIncomplete

/-- A data frame of declared size `n` from the bytes after the marker (R76, R88). -/
def decodeData (n : Nat) (bs : List Byte) : Decoded :=
  if n = 0 ∨ 65536 < n then .reject .badDeclaredSize
  else
    match bs.drop n with
    | e :: c :: _ => .instr (.data (bs.take n) e c)
    | _ => .reject .frameIncomplete

/-- A whole frame at the head of the bytes; a data frame's length comes from the declared size (R70, R88). -/
def decodeFrame (declared : Option Nat) (bs : List Byte) : Decoded :=
  match bs with
  | [] => .reject .noByteQueued
  | m :: rest =>
    if m = 0x31#8 then
      match rest with
      | d :: s :: t :: _ => .instr (.select d s t)
      | _ => .reject .frameIncomplete
    else if m = 0x01#8 then decodeHeader rest
    else if m = 0x02#8 then
      match declared with
      | none => .reject .noDeclaredSize
      | some n => decodeData n rest
    else .reject (.notFrameMarker m)

/-- A command is the event of its own name (R89). -/
def decodeCommand : Command → Instr
  | .done => .cmdDone
  | .send dest src fnc size bytes => .cmdSend dest src fnc size bytes
  | .timeout => .txTimeout
  | .linkFail => .envLinkFail
  | .reset => .envReset

/-- The decoder: what the cue is for this consumer, this declared size and this grain. Bytes after the
instruction's own are not looked at. -/
def decode (c : Consumer) (declared : Option Nat) (g : Grain) : Cue → Decoded
  | .command x => .instr (decodeCommand x)
  | .link bs =>
    match g, bs with
    | _, [] => .reject .noByteQueued
    | .event, b :: _ => decodeEvent c b
    | .control, b :: _ => decodeControl b
    | .frame, b :: rest => decodeFrame declared (b :: rest)

/-! ### The encoder -/

/-- The `fmt` byte of a header layout (R74). -/
def fmtByte (rsv : BitVec 5) (i16 s16 dir : Bool) : Byte :=
  rsv ++ BitVec.ofBool i16 ++ BitVec.ofBool s16 ++ BitVec.ofBool dir

/-- What an instruction is on the link or on its port (R71 to R76, R89). -/
def encode : Instr → Cue
  | .sel => .link [0x31#8]
  | .soh => .link [0x01#8]
  | .stx => .link [0x02#8]
  | .etx => .link [0x03#8]
  | .eot => .link [0x04#8]
  | .enq => .link [0x05#8]
  | .ack => .link [0x06#8]
  | .wait => .link [0x10#8]
  | .nak => .link [0x15#8]
  | .select d m t => .link [0x31#8, d, m, t]
  | .headerI8S8 rsv dir d s n z c => .link [0x01#8, fmtByte rsv false false dir, d, s, n, z, c]
  | .headerI8S16 rsv dir d s n z c =>
      .link [0x01#8, fmtByte rsv false true dir, d, s, n, Machine.hiByte z, Machine.loByte z, c]
  | .headerI16S8 rsv dir d s n z c =>
      .link [0x01#8, fmtByte rsv true false dir, Machine.hiByte d, Machine.loByte d, Machine.hiByte s,
        Machine.loByte s, n, z, c]
  | .headerI16S16 rsv dir d s n z c =>
      .link [0x01#8, fmtByte rsv true true dir, Machine.hiByte d, Machine.loByte d, Machine.hiByte s,
        Machine.loByte s, n, Machine.hiByte z, Machine.loByte z, c]
  | .data p e c => .link (0x02#8 :: (p ++ [e, c]))
  | .rxIdleSel => .link [0x31#8]
  | .rxIdleSoh => .link [0x01#8]
  | .rxIdleOther b => .link [b]
  | .rxSelectByte b => .link [b]
  | .rxHeaderByte b => .link [b]
  | .rxHcStx => .link [0x02#8]
  | .rxHcOther b => .link [b]
  | .rxDataByte b => .link [b]
  | .rxAeEnq => .link [0x05#8]
  | .rxAeEot => .link [0x04#8]
  | .rxAeOther b => .link [b]
  | .cmdDone => .command .done
  | .cmdSend dest src fnc size bytes => .command (.send dest src fnc size bytes)
  | .txHdrAck => .link [0x06#8]
  | .txHdrOther b => .link [b]
  | .txTimeout => .command .timeout
  | .txDataAck => .link [0x06#8]
  | .txDataOther b => .link [b]
  | .envLinkFail => .command .linkFail
  | .envReset => .command .reset

/-- The consumer state an event row belongs to (R89); for the other rows the decoder does not look at it. -/
def consumerOf : Instr → Consumer
  | .rxIdleSel => .parser .idle
  | .rxIdleSoh => .parser .idle
  | .rxIdleOther _ => .parser .idle
  | .rxSelectByte _ => .parser .select
  | .rxHeaderByte _ => .parser .header
  | .rxHcStx => .parser .headerComplete
  | .rxHcOther _ => .parser .headerComplete
  | .rxDataByte _ => .parser .data
  | .rxAeEnq => .parser .awaitingEnd
  | .rxAeEot => .parser .awaitingEnd
  | .rxAeOther _ => .parser .awaitingEnd
  | .txHdrAck => .hdrWait
  | .txHdrOther _ => .hdrWait
  | .txDataAck => .dataWait
  | .txDataOther _ => .dataWait
  | .cmdDone => .window
  | .cmdSend _ _ _ _ _ => .window
  | .txTimeout => .hdrWait
  | .data _ _ _ => .parser .headerComplete
  | .sel => .parser .idle
  | .soh => .parser .idle
  | .stx => .parser .headerComplete
  | .etx => .parser .idle
  | .eot => .parser .awaitingEnd
  | .enq => .parser .awaitingEnd
  | .ack => .hdrWait
  | .wait => .parser .idle
  | .nak => .hdrWait
  | .select _ _ _ => .parser .idle
  | .headerI8S8 _ _ _ _ _ _ _ => .parser .idle
  | .headerI8S16 _ _ _ _ _ _ _ => .parser .idle
  | .headerI16S8 _ _ _ _ _ _ _ => .parser .idle
  | .headerI16S16 _ _ _ _ _ _ _ => .parser .idle
  | .envLinkFail => .parser .idle
  | .envReset => .dead

/-- The grain an instruction is decoded at. -/
def grainOf : Instr → Grain
  | .sel => .control
  | .soh => .control
  | .stx => .control
  | .etx => .control
  | .eot => .control
  | .enq => .control
  | .ack => .control
  | .wait => .control
  | .nak => .control
  | .select _ _ _ => .frame
  | .headerI8S8 _ _ _ _ _ _ _ => .frame
  | .headerI8S16 _ _ _ _ _ _ _ => .frame
  | .headerI16S8 _ _ _ _ _ _ _ => .frame
  | .headerI16S16 _ _ _ _ _ _ _ => .frame
  | .data _ _ _ => .frame
  | .rxIdleSel => .event
  | .rxIdleSoh => .event
  | .rxIdleOther _ => .event
  | .rxSelectByte _ => .event
  | .rxHeaderByte _ => .event
  | .rxHcStx => .event
  | .rxHcOther _ => .event
  | .rxDataByte _ => .event
  | .rxAeEnq => .event
  | .rxAeEot => .event
  | .rxAeOther _ => .event
  | .cmdDone => .event
  | .cmdSend _ _ _ _ _ => .event
  | .txHdrAck => .event
  | .txHdrOther _ => .event
  | .txTimeout => .event
  | .txDataAck => .event
  | .txDataOther _ => .event
  | .envLinkFail => .event
  | .envReset => .event

/-- The declared size under which an instruction is decoded: a data frame needs its own (R88). -/
def declaredOf : Instr → Option Nat
  | .data p _ _ => some p.length
  | _ => none

/-! ### Words as spec/opcode_table.json numbers them (log 18) -/

/-- Bytes of a number, the least significant first. -/
def bytesOfNat : Nat → Nat → List Byte
  | 0, _ => []
  | n + 1, w => BitVec.ofNat 8 w :: bytesOfNat n (w / 256)

/-- The first two bytes exchanged: the table numbers a HEADER row's marker and `fmt` as ONE 16-bit number with
the marker in bits 15..8 (match 0x0100, mask 0xFF06). -/
def headerOrder : List Byte → List Byte
  | a :: b :: rest => if b = 0x01#8 then b :: a :: rest else a :: b :: rest
  | bs => bs

/-- The bytes of a table word in link order, without padding. A word of 2 bytes or of more than 4 is a HEADER's
or a DATA row's; a word of 4 bytes is SELECT's or DATA's. -/
def tableHead (nbits w : Nat) : List Byte :=
  let n := nbits / 8
  let bs := bytesOfNat n w
  if n = 2 ∨ 4 < n then headerOrder bs else bs

/-- The declared size a table word of a DATA row stands for: what is left of its bytes beside the marker, the
end byte and the checksum, at least 1. -/
def tableSize (nbits : Nat) : Nat := max 1 (nbits / 8 - 3)

/-- The length of the frame that begins with these bytes (R88). -/
def tableFrameLen (nbits : Nat) : List Byte → Nat
  | m :: rest =>
    if m = 0x31#8 then 4
    else if m = 0x01#8 then
      match rest with
      | fmt :: _ => Machine.hdrLen fmt
      | [] => 7
    else if m = 0x02#8 then tableSize nbits + 3
    else 1
  | [] => 0

/-- The instruction's bytes in link order, zeros above the table's bits. -/
def tableBytes (nbits w : Nat) : List Byte :=
  let bs := tableHead nbits w
  if nbits / 8 ≤ 1 then bs else bs ++ List.replicate (tableFrameLen nbits bs - bs.length) 0#8

/-- The grain a table word is read at: one byte is a control byte where it is one of the nine, else an event; more
bytes are a frame. -/
def tableGrain (nbits w : Nat) : Grain :=
  if nbits / 8 ≤ 1 then
    match decodeControl (BitVec.ofNat 8 w) with
    | .instr _ => .control
    | .reject _ => .event
  else .frame

/-- The instruction the decoder reads from an instruction whose bits are `w`, numbered as
spec/opcode_table.json numbers them. A one-byte event is read in `Idle`, the state after reset. -/
def decodeTableWord (nbits w : Nat) : Option Instr :=
  match decode (.parser .idle) (some (tableSize nbits)) (tableGrain nbits w) (.link (tableBytes nbits w)) with
  | .instr i => some i
  | .reject _ => none

end Sys2Proof
end

