-- ==== Sys2Proof/Machine/Flags.lean ====
section
/-! DEFINITION. The flags `BUSY`, `ALIVE`, `TX_STATUS`: what they enable (R43, R100, R171) and how they change. -/

namespace Sys2Proof.Machine

/-- Who consumes the next byte (R43), the rows in the table's order. Outside the invariant of R40 the first
row that holds is taken (log 12). -/
def State.consumer (s : State) : Consumer :=
  if s.alive = false then .dead
  else if s.busy = false then .parser s.rxs
  else
    match s.txs with
    | .txHdrWait => .hdrWait
    | .txDataWait => .dataWait
    | .txIdle => .window

/-- Some agent consumes bytes in this state (R43). -/
def State.canConsume (s : State) : Bool :=
  match s.consumer with
  | .parser _ => true
  | .hdrWait => true
  | .dataWait => true
  | .window => false
  | .dead => false

/-- The device's commands are enabled (R152, R171): `ALIVE = 1`, `BUSY = 1`, `TXS = TxIdle`. -/
def State.windowOpen (s : State) : Bool := s.alive && s.busy && decide (s.txs = .txIdle)

/-- `registered(id)`: `id` is a member of `REG` (R9). -/
def State.registered (s : State) (id : DevId) : Bool := decide (id ∈ s.cfg.reg)

/-- `BUSY <- 1` with the record on the `REQ` port (R150). -/
def State.openWindow (s : State) (r : Request) : State := { s with busy := true, reqOut := s.reqOut ++ [r] }

/-- `BUSY <- 0` (R152). -/
def State.closeWindow (s : State) : State := { s with busy := false }

/-- A SEND finishes: `TX_STATUS` and the `STATUS` transfer, `TXS <- TxIdle` (R179, R182). -/
def State.finishSend (s : State) (r : TxStatus) : State :=
  { s with txStatus := r, txs := .txIdle, statusOut := s.statusOut ++ [r] }

/-- `ALIVE <- 0`; a SEND in progress gets `fail` (R206). No `STATUS` transfer and no `DIAG` entry: the rule
emits nothing and leaves every other piece of state as it is (log 9, log 10). -/
def State.die (s : State) : State :=
  if s.txs = .txIdle then { s with alive := false }
  else { s with alive := false, txStatus := .fail, txs := .txIdle }

end Sys2Proof.Machine
end

