-- ==== Sys2Proof/Machine/Ops.lean ====
section
/-! DEFINITION. The named operations over state: the primitives of 00_scope.md R9, raising an error (60_exceptions.md),
the enabling of a byte event, the sender's retry (43_tx_send.md R181). -/

namespace Sys2Proof.Machine

/-! ### Primitives (R9) -/

/-- `take()` of the byte `b` that stands before `rest` in `RXQ`, recorded in `MON` (R54, R217). -/
def State.taken (s : State) (b : Byte) (rest : List Byte) : State :=
  { s with rxq := rest, mon := s.mon ++ [(.rx, b)] }

/-- `emit(b)`. -/
def State.emit (s : State) (b : Byte) : State := { s with txOut := s.txOut ++ [b], mon := s.mon ++ [(.tx, b)] }

/-- `emit_seq(bs)`. -/
def State.emitSeq (s : State) (bs : List Byte) : State :=
  { s with txOut := s.txOut ++ bs, mon := s.mon ++ bs.map fun b => (.tx, b) }

/-- `report`. -/
def State.report (s : State) (r : Report) : State := { s with diag := s.diag ++ [r] }

/-- `RXS <- r`. -/
def State.setRxs (s : State) (r : RxState) : State := { s with rxs := r }

/-- `BUF <- m`. -/
def State.setBuf (s : State) (m : Memory) : State := { s with buf := m }

/-- The four latches written together (R23). -/
def State.setLatches (s : State) (l : HeaderLatch) : State := { s with latches := some l }

/-- `while RXQ != [] do take()` (R172). -/
def State.drain (s : State) : State :=
  { s with rxq := [], mon := s.mon ++ s.rxq.map fun b => (.rx, b) }

/-- `TX_ROUND <- n`, `TXS <- p`: a phase begins (R175, R176). -/
def State.enterPhase (s : State) (p : TxState) : State := { s with txRound := 1#3, txs := p }

/-- `TX_HDR` and `TX_DAT` of an accepted SEND (R175). -/
def State.loadUnits (s : State) (hdr dat : List Byte) : State := { s with txHdr := hdr, txDat := dat }

/-! ### Raising an error: the one shared operation of taking an exception (R200, R212)

Nothing is saved and there is no handler; the whole effect is the recovery action, done in the step that
detects the error. There is no return from it (R213). -/

/-- The recovery action of each error, with its record in `DIAG` (R201 to R208; log 11). -/
def State.raise (s : State) : LinkError → State
  | .headerChecksum sum =>
      (((s.emit NAK).report (.error (.headerChecksum sum))).setBuf []).setRxs .idle
  | .dataChecksum sum =>
      (((s.emit NAK).report (.error (.dataChecksum sum))).setBuf []).setRxs .headerComplete
  | .unassociated b => s.report (.error (.unassociated b))
  | .outOfBand b => (s.report (.error (.outOfBand b))).setRxs .idle
  | .unexpectedInAwaitingEnd b => s.report (.error (.unexpectedInAwaitingEnd b))
  | .unregistered id => s.report (.error (.unregistered id))
  | .unexpectedHandshake b => s.report (.error (.unexpectedHandshake b))
  | .sendFailure p => (s.report (.error (.sendFailure p))).finishSend .fail
  | .linkFailure => s.die

/-! ### Enabling a byte event -/

/-- A receive event for the byte `b` in the parse state `r`: enabled iff `ALIVE = 1`, `BUSY = 0`, `RXS = r` and `b`
heads `RXQ`; it begins with `take()` (R100). -/
def rxEvent (r : RxState) (b : Byte) (k : State → Result) (s : State) : Result :=
  match s.rxq with
  | [] => .refused .notEnabled
  | c :: rest =>
    if s.alive = true ∧ s.busy = false ∧ s.rxs = r ∧ c = b then k (s.taken b rest) else .refused .notEnabled

/-- A handshake event for the byte `b` in the sender's phase `p`: enabled iff `ALIVE = 1`, `TXS = p` and `b` heads
`RXQ`; it begins with `take()` (R176, R177, R179, R180). -/
def txEvent (p : TxState) (b : Byte) (k : State → Result) (s : State) : Result :=
  match s.rxq with
  | [] => .refused .notEnabled
  | c :: rest =>
    if s.alive = true ∧ s.txs = p ∧ c = b then k (s.taken b rest) else .refused .notEnabled

/-- A default row excludes the bytes of the rows above it (R89). -/
def exceptBytes (excluded : List Byte) (b : Byte) (r : Result) : Result :=
  if b ∈ excluded then .refused .notEnabled else r

/-! ### `BUF` and the latches inside a step -/

/-- `BUF <- BUF ++ [b]`, then go on (R57). -/
def appendByte (b : Byte) (k : State → Result) (s : State) : Result :=
  if s.buf.length < bufCap then k (s.setBuf (s.buf.append b)) else .fault .bufferFull

/-- Go on with what was read of `BUF`; an undefined read stops (R9). -/
def withRead {α : Type} (o : Option α) (k : α → Result) : Result :=
  match o with
  | some x => k x
  | none => .fault .bufferRead

/-- Go on with the latches; a model must refuse to read `unwritten` (R9, R24). -/
def withLatch (s : State) (k : HeaderLatch → Result) : Result :=
  match s.latches with
  | some l => k l
  | none => .refused .unwrittenLatch

/-- A marker opens a frame: `BUF <- [m]`, `RXS <- r` (R101, R102, R140). -/
def State.openFrame (s : State) (m : Byte) (r : RxState) : State := (s.setBuf [(0, m)]).setRxs r

/-- A frame ends: `BUF <- []`, `RXS <- r`. -/
def State.closeFrame (s : State) (r : RxState) : State := (s.setBuf []).setRxs r

/-! ### The sender's wait -/

/-- The report of a non-ACK byte: NAK and both end-marker readings are "no answer", any other byte is E7 (R177,
R180; 90_conflicts.md C6). -/
def State.noteAnswer (s : State) (b : Byte) : State :=
  if b = NAK ∨ b = EOT ∨ b = ETX then s.report (.noAnswer b) else s.raise (.unexpectedHandshake b)

/-- `retry_or_fail(unit)` (R181). -/
def State.retryOrFail (s : State) (unit : List Byte) : State :=
  if s.txRound < txRounds then ({ s with txRound := s.txRound + 1#3 } : State).emitSeq unit
  else s.raise (.sendFailure s.txs)

end Sys2Proof.Machine
end

