-- ==== Sys2Proof/Machine/RxData.lean ====
section
/-! DEFINITION. Receive events in HeaderComplete, Data and AwaitingEnd, dispatch, and the end of the window
(42_rx_data_dispatch.md). -/

namespace Sys2Proof.Machine

/-- `RX.HC.STX` (R140). -/
def execRxHcStx (s : State) : Result := rxEvent .headerComplete STX (fun s => .next (s.openFrame STX .data)) s

/-- `RX.HC.OTHER` (R141): the byte is consumed and not looked at again. -/
def execRxHcOther (b : Byte) (s : State) : Result :=
  exceptBytes [STX] b (rxEvent .headerComplete b (fun s => .next (s.raise (.outOfBand b))) s)

/-- The test after an append in Data: complete at `x[SIZE] + 3` bytes, then accepted iff `sum8(BUF) = 0`; the byte
at the 0x03 position is not tested (R142 to R144). -/
def dataCheck (s : State) : Result :=
  withLatch s fun l =>
    if s.buf.length = l.size.toNat + 3 then
      if sum8 s.buf.bytes = 0#8 then .next ((s.emit ACK).setRxs .awaitingEnd)
      else .next (s.raise (.dataChecksum (sum8 s.buf.bytes)))
    else .next s

/-- `RX.DATA.BYTE` (R142). -/
def execRxDataByte (b : Byte) (s : State) : Result := rxEvent .data b (appendByte b dataCheck) s

/-- `RX.AE.ENQ` (R145). -/
def execRxAeEnq (s : State) : Result := rxEvent .awaitingEnd ENQ (fun s => .next (s.emit ACK)) s

/-- Dispatch of the request in the latches and `payload` (R150), or E6 (R151). -/
def State.dispatch (s : State) (l : HeaderLatch) (payload : List Byte) : State :=
  if s.registered l.did then s.openWindow ⟨l.did, l.sid, l.fnc, l.size, payload⟩
  else s.raise (.unregistered l.did)

/-- `RX.AE.EOT` (R146). -/
def execRxAeEot (s : State) : Result :=
  rxEvent .awaitingEnd EOT
    (fun s => withLatch s fun l => withRead (s.buf.readSeq 1 l.size.toNat) fun payload =>
      .next ((s.closeFrame .headerComplete).dispatch l payload)) s

/-- `RX.AE.OTHER` (R147). -/
def execRxAeOther (b : Byte) (s : State) : Result :=
  exceptBytes [ENQ, EOT] b (rxEvent .awaitingEnd b (fun s => .next (s.raise (.unexpectedInAwaitingEnd b))) s)

/-- `CMD.DONE` (R152). -/
def execCmdDone (s : State) : Result := if s.windowOpen then .next s.closeWindow else .refused .notEnabled

end Sys2Proof.Machine
end

