-- ==== Sys2Proof/Machine/RxHeader.lean ====
section
/-! DEFINITION. Receive events in Header (41_rx_header.md). -/

namespace Sys2Proof.Machine

/-- `header_accept()` (R121). -/
def headerAccept (s : State) : Result :=
  withRead (headerLatch s.buf) fun l => .next (((s.setLatches l).emit ACK).closeFrame .headerComplete)

/-- The test after an append in Header: complete at `hdr_len(BUF[1])`, then accepted iff `sum8(BUF) = 0`
(R120, R82). -/
def headerCheck (s : State) : Result :=
  if s.buf.length < 2 then .next s
  else
    withRead (s.buf.read 1) fun fmt =>
      if s.buf.length = hdrLen fmt then
        if sum8 s.buf.bytes = 0#8 then headerAccept s else .next (s.raise (.headerChecksum (sum8 s.buf.bytes)))
      else .next s

/-- `RX.HEADER.BYTE` (R120 to R122). -/
def execRxHeaderByte (b : Byte) (s : State) : Result := rxEvent .header b (appendByte b headerCheck) s

end Sys2Proof.Machine
end

