-- ==== Sys2Proof/Machine/RxIdleSelect.lean ====
section
/-! DEFINITION. Receive events in Idle and Select (40_rx_idle_select.md). -/

namespace Sys2Proof.Machine

/-- `RX.IDLE.SEL` (R101). -/
def execRxIdleSel (s : State) : Result := rxEvent .idle SEL (fun s => .next (s.openFrame SEL .select)) s

/-- `RX.IDLE.SOH` (R102). -/
def execRxIdleSoh (s : State) : Result := rxEvent .idle SOH (fun s => .next (s.openFrame SOH .header)) s

/-- `RX.IDLE.OTHER` (R103). -/
def execRxIdleOther (b : Byte) (s : State) : Result :=
  exceptBytes [SEL, SOH] b (rxEvent .idle b (fun s => .next (s.raise (.unassociated b))) s)

/-- The 4th byte of a Select frame: ACK iff the slaveID is registered, its value is not tested (R104). -/
def finishSelect (s : State) : Result :=
  withRead (s.buf.read 1) fun slave =>
    .next ((if s.registered (zext16 slave) then s.emit ACK else s).closeFrame .idle)

/-- `RX.SELECT.BYTE` (R104). -/
def execRxSelectByte (b : Byte) (s : State) : Result :=
  rxEvent .select b (appendByte b fun s => if s.buf.length = 4 then finishSelect s else .next s) s

end Sys2Proof.Machine
end

