-- ==== Sys2Proof/Machine/TxSend.lean ====
section
/-! DEFINITION. The outbound transaction (43_tx_send.md). -/

namespace Sys2Proof.Machine

/-- `CMD.SEND` (R171 to R175). -/
def execCmdSend (dest src : DevId) (fnc : Byte) (size : Size) (bytes : List Byte) (s : State) : Result :=
  if s.windowOpen then
    if sendOperandsOk size bytes then
      .next (((s.drain.loadUnits (sendHeader s.cfg dest src fnc size) (sendData bytes)).emitSeq
        (sendHeader s.cfg dest src fnc size)).enterPhase .txHdrWait)
    else .refused .sendOperands
  else .refused .notEnabled

/-- `TX.HDR.ACK` (R176). -/
def execTxHdrAck (s : State) : Result :=
  txEvent .txHdrWait ACK (fun s => .next ((s.emitSeq s.txDat).enterPhase .txDataWait)) s

/-- `TX.HDR.OTHER` (R177). -/
def execTxHdrOther (b : Byte) (s : State) : Result :=
  exceptBytes [ACK] b (txEvent .txHdrWait b (fun s => .next ((s.noteAnswer b).retryOrFail s.txHdr)) s)

/-- `TX.TIMEOUT` (R178). -/
def execTxTimeout (s : State) : Result :=
  if s.alive = true ∧ s.rxq = [] then
    match s.txs with
    | .txHdrWait => .next ((s.report .noAnswerTimeout).retryOrFail s.txHdr)
    | .txDataWait => .next ((s.report .noAnswerTimeout).retryOrFail s.txDat)
    | .txIdle => .refused .notEnabled
  else .refused .notEnabled

/-- `TX.DATA.ACK` (R179, R184). -/
def execTxDataAck (s : State) : Result :=
  txEvent .txDataWait ACK (fun s => .next ((s.emit EOT).finishSend .ok)) s

/-- `TX.DATA.OTHER` (R180). -/
def execTxDataOther (b : Byte) (s : State) : Result :=
  exceptBytes [ACK] b (txEvent .txDataWait b (fun s => .next ((s.noteAnswer b).retryOrFail s.txDat)) s)

end Sys2Proof.Machine
end

