-- ==== Sys2Proof/Machine/Bytes.lean ====
section
/-! DEFINITION. A control byte and a whole frame as instructions: their bytes are consumed from the head of `RXQ` in
order, each by the rule R43 and R89 select (30_encoding.md R71, R90; log 2). -/

namespace Sys2Proof.Machine

/-- The byte `b` at the head of `RXQ` is consumed by the rule that the present state selects (R43, R89). -/
def consumeByte (b : Byte) (s : State) : Result :=
  match s.consumer with
  | .parser .idle =>
      if b = SEL then execRxIdleSel s else if b = SOH then execRxIdleSoh s else execRxIdleOther b s
  | .parser .select => execRxSelectByte b s
  | .parser .header => execRxHeaderByte b s
  | .parser .headerComplete => if b = STX then execRxHcStx s else execRxHcOther b s
  | .parser .data => execRxDataByte b s
  | .parser .awaitingEnd =>
      if b = ENQ then execRxAeEnq s else if b = EOT then execRxAeEot s else execRxAeOther b s
  | .hdrWait => if b = ACK then execTxHdrAck s else execTxHdrOther b s
  | .dataWait => if b = ACK then execTxDataAck s else execTxDataOther b s
  | .window => .refused .notEnabled
  | .dead => .refused .notEnabled

/-- The bytes are consumed one after the other; where the state has no consumer any more (a dispatch opened the
window) the rest waits in `RXQ` (R43). -/
def consumeSeq : List Byte → State → Result
  | [], s => .next s
  | b :: bs, s =>
    if s.canConsume then
      match consumeByte b s with
      | .next t => consumeSeq bs t
      | .fault f => .fault f
      | .refused r => .refused r
    else .next s

/-- A whole frame at the head of `RXQ`. -/
def consumeFrame (bs : List Byte) (s : State) : Result :=
  if s.canConsume = true ∧ bs <+: s.rxq then consumeSeq bs s else .refused .notEnabled

/-! ### Control bytes (R71) -/

/-- `SEL`. -/
def execSel (s : State) : Result := consumeByte SEL s
/-- `SOH`. -/
def execSoh (s : State) : Result := consumeByte SOH s
/-- `STX`. -/
def execStx (s : State) : Result := consumeByte STX s
/-- `ETX`. -/
def execEtx (s : State) : Result := consumeByte ETX s
/-- `EOT`. -/
def execEot (s : State) : Result := consumeByte EOT s
/-- `ENQ`. -/
def execEnq (s : State) : Result := consumeByte ENQ s
/-- `ACK`. -/
def execAck (s : State) : Result := consumeByte ACK s
/-- `WAIT`: an ordinary byte wherever received, no hold and no delay (R86). -/
def execWait (s : State) : Result := consumeByte WAIT s
/-- `NAK`. -/
def execNak (s : State) : Result := consumeByte NAK s

/-! ### Frames (R72, R73, R76) -/

/-- `SELECT` (R72, R104). -/
def execSelect (slave master term : Byte) (s : State) : Result := consumeFrame [SEL, slave, master, term] s

/-- `HEADER.I8.S8` (R73, R120). -/
def execHeaderI8S8 (rsv : BitVec 5) (dir : Bool) (dest src fnc size1 c : Byte) (s : State) : Result :=
  consumeFrame [SOH, fmtByte rsv false false dir, dest, src, fnc, size1, c] s

/-- `HEADER.I8.S16` (R73, R120). -/
def execHeaderI8S16 (rsv : BitVec 5) (dir : Bool) (dest src fnc : Byte) (size1 : BitVec 16) (c : Byte)
    (s : State) : Result :=
  consumeFrame [SOH, fmtByte rsv false true dir, dest, src, fnc, hiByte size1, loByte size1, c] s

/-- `HEADER.I16.S8` (R73, R120). -/
def execHeaderI16S8 (rsv : BitVec 5) (dir : Bool) (dest src : DevId) (fnc size1 c : Byte) (s : State) : Result :=
  consumeFrame [SOH, fmtByte rsv true false dir, hiByte dest, loByte dest, hiByte src, loByte src, fnc, size1, c] s

/-- `HEADER.I16.S16` (R73, R120). -/
def execHeaderI16S16 (rsv : BitVec 5) (dir : Bool) (dest src : DevId) (fnc : Byte) (size1 : BitVec 16) (c : Byte)
    (s : State) : Result :=
  consumeFrame [SOH, fmtByte rsv true true dir, hiByte dest, loByte dest, hiByte src, loByte src, fnc,
    hiByte size1, loByte size1, c] s

/-- `DATA` (R76, R142). -/
def execData (payload : List Byte) (etx c : Byte) (s : State) : Result :=
  consumeFrame (STX :: (payload ++ [etx, c])) s

end Sys2Proof.Machine
end

