-- ==== Sys2Proof/Machine/Env.lean ====
section
/-! DEFINITION. Link failure and reset (60_exceptions.md R206, 70_reset_and_hazards.md R230). -/

namespace Sys2Proof.Machine

/-- `ENV.LINK_FAIL` (R206). -/
def execEnvLinkFail (s : State) : Result :=
  if s.alive then .next (s.raise .linkFailure) else .refused .notEnabled

/-- `ENV.RESET` (R230, R41): `TX_ROUND`, `TX_HDR`, `TX_DAT` become free values (U11; log 5); the parameters, the
traces and the ports' histories stay (log 8). -/
def execEnvReset (s : State) : Result :=
  .next { s with
    rxs := .idle, buf := [], latches := none, rxq := [], busy := false, alive := true,
    txStatus := .none, txs := .txIdle,
    txRound := Config.freeRound s.freeCount, txHdr := Config.freeHdr s.freeCount,
    txDat := Config.freeDat s.freeCount, freeCount := s.freeCount + 1 }

end Sys2Proof.Machine
end

