-- ==== Sys2Proof/Machine/Dispatch.lean ====
section
/-! DEFINITION. One arm per instruction, each one direct call of its meaning. -/

namespace Sys2Proof.Machine

def exec (i : Instr) (s : State) : Host.Outcome State Fault Refusal :=
  match i with
  | .sel => Sys2Proof.Machine.execSel s
  | .soh => Sys2Proof.Machine.execSoh s
  | .stx => Sys2Proof.Machine.execStx s
  | .etx => Sys2Proof.Machine.execEtx s
  | .eot => Sys2Proof.Machine.execEot s
  | .enq => Sys2Proof.Machine.execEnq s
  | .ack => Sys2Proof.Machine.execAck s
  | .wait => Sys2Proof.Machine.execWait s
  | .nak => Sys2Proof.Machine.execNak s
  | .select slave master term => Sys2Proof.Machine.execSelect slave master term s
  | .headerI8S8 rsv dir dest src fnc size1 c => Sys2Proof.Machine.execHeaderI8S8 rsv dir dest src fnc size1 c s
  | .headerI8S16 rsv dir dest src fnc size1 c => Sys2Proof.Machine.execHeaderI8S16 rsv dir dest src fnc size1 c s
  | .headerI16S8 rsv dir dest src fnc size1 c => Sys2Proof.Machine.execHeaderI16S8 rsv dir dest src fnc size1 c s
  | .headerI16S16 rsv dir dest src fnc size1 c => Sys2Proof.Machine.execHeaderI16S16 rsv dir dest src fnc size1 c s
  | .data payload e c => Sys2Proof.Machine.execData payload e c s
  | .rxIdleSel => Sys2Proof.Machine.execRxIdleSel s
  | .rxIdleSoh => Sys2Proof.Machine.execRxIdleSoh s
  | .rxIdleOther b => Sys2Proof.Machine.execRxIdleOther b s
  | .rxSelectByte b => Sys2Proof.Machine.execRxSelectByte b s
  | .rxHeaderByte b => Sys2Proof.Machine.execRxHeaderByte b s
  | .rxHcStx => Sys2Proof.Machine.execRxHcStx s
  | .rxHcOther b => Sys2Proof.Machine.execRxHcOther b s
  | .rxDataByte b => Sys2Proof.Machine.execRxDataByte b s
  | .rxAeEnq => Sys2Proof.Machine.execRxAeEnq s
  | .rxAeEot => Sys2Proof.Machine.execRxAeEot s
  | .rxAeOther b => Sys2Proof.Machine.execRxAeOther b s
  | .cmdDone => Sys2Proof.Machine.execCmdDone s
  | .cmdSend dest src fnc size bytes => Sys2Proof.Machine.execCmdSend dest src fnc size bytes s
  | .txHdrAck => Sys2Proof.Machine.execTxHdrAck s
  | .txHdrOther b => Sys2Proof.Machine.execTxHdrOther b s
  | .txTimeout => Sys2Proof.Machine.execTxTimeout s
  | .txDataAck => Sys2Proof.Machine.execTxDataAck s
  | .txDataOther b => Sys2Proof.Machine.execTxDataOther b s
  | .envLinkFail => Sys2Proof.Machine.execEnvLinkFail s
  | .envReset => Sys2Proof.Machine.execEnvReset s

end Sys2Proof.Machine
end

