-- ==== Sys2Proof/Machine/Fetch.lean ====
section
/-! DEFINITION. What the framer's turn finds to consume (R43, R89), and how a table word is placed there. -/

namespace Sys2Proof.Machine

/-- `x[SIZE]` where it is written: the length of a data frame is not in the frame (R88). -/
def State.declaredSize (s : State) : Option Nat := s.latches.map fun l => l.size.toNat

/-- What the framer's turn finds: nothing without a consumer (R43), else what the decoder reads from the head of
`RXQ` at this grain. -/
def State.fetch (s : State) (g : Grain) : Decoded :=
  if s.canConsume then decode s.consumer s.declaredSize g (.link s.rxq)
  else if s.rxq = [] then .reject .noByteQueued
  else .reject .noConsumer

/-- The latches a data frame of this size needs, the other fields kept where they are written. -/
def latchesForSize (l : Option HeaderLatch) (n : Nat) : Option HeaderLatch :=
  match l with
  | some l => some { l with size := BitVec.ofNat 17 n }
  | none => some ⟨0#16, 0#16, 0#8, BitVec.ofNat 17 n⟩

/-- The table word is a DATA row's: a frame that opens with 0x02. -/
def tableIsData (nbits w : Nat) : Bool :=
  decide (tableGrain nbits w = .frame) && decide ((tableBytes nbits w).head? = some STX)

/-- The table word's bytes at the head of `RXQ`, the framer's turn at the word's grain next, and the parser as the
consumer; in `Idle` for an event word, in `HeaderComplete` with the word's declared size latched for a data frame. -/
def State.placeTableWord (s : State) (nbits w : Nat) : State :=
  { s with
    rxq := tableBytes nbits w ++ s.rxq
    script := .receive (tableGrain nbits w) :: s.script
    alive := true
    busy := false
    txs := .txIdle
    rxs :=
      if tableGrain nbits w = .event then .idle
      else if tableIsData nbits w then .headerComplete else s.rxs
    latches := if tableIsData nbits w then latchesForSize s.latches (tableSize nbits) else s.latches }

end Sys2Proof.Machine
end

