-- ==== Sys2Proof/Machine/Step.lean ====
section
/-! DEFINITION. One step: one turn of one agent (00_scope.md R10, 10_state.md R20, R36 to R38). -/

namespace Sys2Proof.Machine

/-- One turn: the master's byte is queued (R36); the framer's turn runs what it fetches; a command runs as the event
it is. An event for which no rule is enabled has no step and is refused (R11). -/
def State.turn (s : State) : Turn → Result
  | .arrive b => if s.alive then .next { s with rxq := s.rxq ++ [b] } else .refused .masterMoveWhileDead
  | .receive g =>
    match s.fetch g with
    | .instr i => exec i s
    | .reject why => .refused (.noStep why)
  | .command c => exec (decodeCommand c) s

/-- One step: the next turn of the script; with none left, the framer's own turn at one event (log 1). -/
def step (s : State) : Host.Outcome State Fault Refusal :=
  match s.script with
  | [] => s.turn (.receive .event)
  | t :: rest => State.turn { s with script := rest } t

/-- `s` with the instruction of a table word where the next step fetches it (log 18). -/
def State.withFetchWord (s : State) (nbits w : Nat) : State := s.placeTableWord nbits w

end Sys2Proof.Machine
end

