-- ==== Sys2Proof/Machine/Listing.lean ====
section
/-! DEFINITION. The notation of 30_encoding.md R90 to R92: listings, frame constructors, pseudo-instructions. No rule of the
machine reads it. -/

namespace Sys2Proof.Machine

/-- A line of a listing (R90): `>`, `<`, or `!` with a command or with an output of the framer. -/
inductive Line where
  | toFramer (bs : List Byte)
  | toMaster (bs : List Byte)
  | command (c : Command)
  | req (r : Request)
  | status (r : TxStatus)
deriving DecidableEq, Repr

/-- `SELECT(slave, master)` (R91). -/
def frameSelect (slave master : Byte) : List Byte := [SEL, slave, master, ENQ]

/-- `HEADER(fmt, did, sid, fnc, size)` (R91); the narrow fields need values that fit, as R91 requires. -/
def frameHeader (fmt : Byte) (did sid : DevId) (fnc : Byte) (size : Size) : List Byte :=
  withCks (headerBody fmt did sid fnc (fieldOfSize size))

/-- `DATA(p)` (R91). -/
def frameData (p : List Byte) : List Byte := withCks (dataBody p)

/-- `BAD(frame)`: the last byte replaced by `(c + 1) mod 256` (R91). -/
def frameBad : List Byte → List Byte
  | [] => []
  | [c] => [c + 1#8]
  | b :: bs => b :: frameBad bs

/-- The narrowest `fmt` that fits, `DIR = 0` (R92). -/
def narrowFmt (did sid : DevId) (n : Nat) : Byte :=
  BitVec.ofNat 8 (2 * (decide (256 < n)).toNat + 4 * (sendI16 did sid).toNat)

/-- `REQUEST(did, sid, fnc, p)` (R92). -/
def listRequest (did sid : DevId) (fnc : Byte) (p : List Byte) : List Line :=
  let size : Size := BitVec.ofNat 17 p.length
  [.toFramer (frameHeader (narrowFmt did sid p.length) did sid fnc size), .toMaster [ACK],
    .toFramer (frameData p), .toMaster [ACK], .toFramer [EOT], .req ⟨did, sid, fnc, size, p⟩]

/-- `REPLY(dest, src, fnc, p)` (R92), the header's `fmt` as R173 computes it. -/
def listReply (cfg : Params) (dest src : DevId) (fnc : Byte) (p : List Byte) : List Line :=
  let size : Size := BitVec.ofNat 17 p.length
  [.command (.send dest src fnc size p), .toMaster (sendHeader cfg dest src fnc size), .toFramer [ACK],
    .toMaster (sendData p), .toFramer [ACK], .toMaster [EOT], .status .ok]

/-- `EXCHANGE(did, sid, fnc, p, q)` (R92). -/
def listExchange (cfg : Params) (did sid : DevId) (fnc : Byte) (p q : List Byte) : List Line :=
  listRequest did sid fnc p ++ listReply cfg sid did fnc q ++ [.command .done]

/-- The turns a line stands for: a `>` byte is appended to `RXQ` and consumed (R90), a command arrives, an output
line asks for no turn. -/
def lineTurns : Line → List Turn
  | .toFramer bs => bs.flatMap fun b => [.arrive b, .receive .event]
  | .toMaster _ => []
  | .command c => [.command c]
  | .req _ => []
  | .status _ => []

/-- The script of a listing. -/
def listingTurns (ls : List Line) : List Turn := ls.flatMap lineTurns

end Sys2Proof.Machine
end

