-- ==== Sys2Proof/Safety.lean ====
section
/-! DEFINITION. The invariant of R40, the end of a run (R252), the roles on the link (R215). -/

namespace Sys2Proof.Machine

/-- The latches are written and the declared size is one a header can declare, 1 to 65536 (R23, R78). -/
def State.latchesOk (s : State) : Prop := ∃ l, s.latches = some l ∧ 1 ≤ l.size.toNat ∧ l.size.toNat ≤ 65536

/-- R40 items 1 to 6: what `RXS` says of `BUF` and of the latches. -/
def State.parserInv (s : State) : Prop :=
  match s.rxs with
  | .idle => s.buf = []
  | .select => 1 ≤ s.buf.length ∧ s.buf.length ≤ 3 ∧ s.buf.read 0 = some SEL
  | .header =>
      1 ≤ s.buf.length ∧ s.buf.read 0 = some SOH ∧ s.buf.length ≤ 9 ∧
        ∀ fmt, s.buf.read 1 = some fmt → s.buf.length + 1 ≤ hdrLen fmt
  | .headerComplete => s.buf = [] ∧ s.latchesOk
  | .data =>
      1 ≤ s.buf.length ∧ s.buf.read 0 = some STX ∧ s.latchesOk ∧
        ∀ l, s.latches = some l → s.buf.length ≤ l.size.toNat + 2
  | .awaitingEnd =>
      sum8 s.buf.bytes = 0#8 ∧ s.latchesOk ∧ ∀ l, s.latches = some l → s.buf.length = l.size.toNat + 3

/-- R40 item 7. -/
def State.senderInv (s : State) : Prop :=
  s.txs ≠ .txIdle →
    s.busy = true ∧ 1 ≤ s.txRound.toNat ∧ s.txRound.toNat ≤ 4 ∧ sum8 s.txHdr = 0#8 ∧ sum8 s.txDat = 0#8

/-- R40 item 8. -/
def State.windowInv (s : State) : Prop := s.busy = true → s.rxs = .headerComplete

/-- The invariant of R40, which the spec states for `ALIVE = 1`, with the canonical form of `BUF` (log 14) and,
whether or not a header has been validated lately, the range of a written `x[SIZE]` (R23). -/
structure State.Inv (s : State) : Prop where
  wf : s.buf.wf
  size : ∀ l, s.latches = some l → 1 ≤ l.size.toNat ∧ l.size.toNat ≤ 65536
  parser : s.alive = true → s.parserInv
  sender : s.alive = true → s.senderInv
  window : s.alive = true → s.windowInv

/-- A quiescent state: no framer step is enabled and no frame is half received (R252). -/
def State.quiescent (s : State) : Bool :=
  s.alive && !s.busy && decide (s.txs = .txIdle) && decide (s.rxq = []) &&
    (decide (s.rxs = .idle) || decide (s.rxs = .headerComplete))

/-- Waiting on the master, not finished: a frame is half received and nothing is queued (R241, R252). -/
def State.waitsOnMaster (s : State) : Bool :=
  s.alive && decide (s.rxq = []) &&
    (decide (s.rxs = .select) || decide (s.rxs = .header) || decide (s.rxs = .data) || decide (s.rxs = .awaitingEnd))

/-- Dead, not finished (R206, R252). -/
def State.dead (s : State) : Bool := !s.alive

/-- The role on the link: sender while a SEND is in progress, else receiver (R215). -/
def State.isSender (s : State) : Bool := decide (s.txs ≠ .txIdle)

/-- The state without the traces no rule reads (R35): what a claim may depend on. -/
def State.withoutTraces (s : State) : State := { s with mon := [], diag := [] }

/-- A step's answer seen through a function of the state. -/
def mapNext {β : Type} (f : State → β) : Result → Host.Outcome β Fault Refusal
  | .next s => .next (f s)
  | .fault e => .fault e
  | .refused r => .refused r

/-- The bytes `MON` records as sent. -/
def sentBytes (m : List (Dir × Byte)) : List Byte := (m.filter fun p => decide (p.1 = .tx)).map Prod.snd

end Sys2Proof.Machine
end

