-- ==== Sys2Proof/Certificates/Slice0/Obligations.lean ====
section
/-! DEFINITION. The statements for the provers. -/

open Sys2Proof Sys2Proof.Machine

/-! ### Vocabulary of the statements, written from the spec apart from the machine's own operations -/

namespace Sys2Proof.Stmt

/-- A receive event for the byte `b` is enabled in the parse state `r` (R100). -/
def ParserReady (s : State) (r : RxState) (b : Byte) (rest : List Byte) : Prop :=
  s.alive = true ∧ s.busy = false ∧ s.rxs = r ∧ s.rxq = b :: rest

/-- A handshake event for the byte `b` is enabled in the sender's phase `p` (R176, R177, R179, R180). -/
def SenderReady (s : State) (p : TxState) (b : Byte) (rest : List Byte) : Prop :=
  s.alive = true ∧ s.txs = p ∧ s.rxq = b :: rest

/-- The sum of the bytes modulo 256 (R80), in the naturals. -/
def sumNat (bs : List Byte) : Nat := (bs.map BitVec.toNat).sum % 256

/-- `(256 - sum8 s) mod 256` (R81), in the naturals. -/
def cksNat (bs : List Byte) : Byte := BitVec.ofNat 8 ((256 - sumNat bs) % 256)

/-- A field of one byte, or of two bytes with the more significant first (R51, R52, R173). -/
def fieldBytes (wide : Bool) (v : Nat) : List Byte :=
  if wide then [BitVec.ofNat 8 (v / 256), BitVec.ofNat 8 (v % 256)] else [BitVec.ofNat 8 (v % 256)]

/-- The number `TX_SIZE16_THRESHOLD` (R7). -/
def thresholdOf (p : Params) : Nat :=
  match p.threshold with
  | .t255 => 255
  | .t256 => 256

/-- `I` of R173: either ID exceeds 255. -/
def wideIds (dest src : DevId) : Bool := decide (dest.toNat > 255 ∨ src.toNat > 255)

/-- `S` of R173: the size exceeds the threshold. -/
def wideSize (p : Params) (size : Size) : Bool := decide (size.toNat > thresholdOf p)

/-- `TX_HDR` without its checksum (R173). -/
def txHeaderBody (p : Params) (dest src : DevId) (fnc : Byte) (size : Size) : List Byte :=
  [0x01#8, BitVec.ofNat 8 (p.txDirBit.toNat + 2 * (wideSize p size).toNat + 4 * (wideIds dest src).toNat)] ++
    fieldBytes (wideIds dest src) dest.toNat ++ fieldBytes (wideIds dest src) src.toNat ++ [fnc] ++
    fieldBytes (wideSize p size) (size.toNat - 1)

/-- `TX_HDR` (R173). -/
def txHeaderOf (p : Params) (dest src : DevId) (fnc : Byte) (size : Size) : List Byte :=
  txHeaderBody p dest src fnc size ++ [cksNat (txHeaderBody p dest src fnc size)]

/-- `TX_DAT` (R174). -/
def txDataOf (bytes : List Byte) : List Byte :=
  let d := [0x02#8] ++ bytes ++ [0x03#8]
  d ++ [cksNat d]

/-- The value of a 2-byte field (R51, R52). -/
def pair (hi lo : Byte) : Nat := hi.toNat * 256 + lo.toNat

/-- The bytes `h` are a complete header with these fields, by the four layouts of R73; `field` is the size minus one. -/
def HeaderHas (h : List Byte) (did sid : DevId) (fnc : Byte) (field : Nat) : Prop :=
  ∃ m fmt c,
    (fmt.getLsbD 2 = false ∧ fmt.getLsbD 1 = false ∧ ∃ d s z, h = [m, fmt, d, s, fnc, z, c] ∧
      did.toNat = d.toNat ∧ sid.toNat = s.toNat ∧ field = z.toNat) ∨
    (fmt.getLsbD 2 = false ∧ fmt.getLsbD 1 = true ∧ ∃ d s z1 z0, h = [m, fmt, d, s, fnc, z1, z0, c] ∧
      did.toNat = d.toNat ∧ sid.toNat = s.toNat ∧ field = pair z1 z0) ∨
    (fmt.getLsbD 2 = true ∧ fmt.getLsbD 1 = false ∧ ∃ d1 d0 s1 s0 z, h = [m, fmt, d1, d0, s1, s0, fnc, z, c] ∧
      did.toNat = pair d1 d0 ∧ sid.toNat = pair s1 s0 ∧ field = z.toNat) ∨
    (fmt.getLsbD 2 = true ∧ fmt.getLsbD 1 = true ∧ ∃ d1 d0 s1 s0 z1 z0,
      h = [m, fmt, d1, d0, s1, s0, fnc, z1, z0, c] ∧
      did.toNat = pair d1 d0 ∧ sid.toNat = pair s1 s0 ∧ field = pair z1 z0)

/-- The header frame `h` is complete: at least two bytes, and as many as `fmt` bits 1 and 2 say (R75, R120). -/
def HeaderComplete (h : List Byte) : Prop :=
  ∃ m fmt rest, h = m :: fmt :: rest ∧
    h.length = 7 + (if fmt.getLsbD 1 then 1 else 0) + 2 * (if fmt.getLsbD 2 then 1 else 0)

/-- The four header layouts of the opcode table. -/
def isHeader : Instr → Bool
  | .headerI8S8 _ _ _ _ _ _ _ => true
  | .headerI8S16 _ _ _ _ _ _ _ => true
  | .headerI16S8 _ _ _ _ _ _ _ => true
  | .headerI16S16 _ _ _ _ _ _ _ => true
  | _ => false

/-- The twenty event rows of R89. -/
def isEvent (i : Instr) : Bool := decide (grainOf i = .event)

/-- The enabling condition of an event row (R89, R100, R152, R171, R176 to R180, R206, R230). -/
def Enabled (i : Instr) (s : State) : Prop :=
  match i with
  | .rxIdleSel => ∃ rest, ParserReady s .idle 0x31#8 rest
  | .rxIdleSoh => ∃ rest, ParserReady s .idle 0x01#8 rest
  | .rxIdleOther b => b ≠ 0x31#8 ∧ b ≠ 0x01#8 ∧ ∃ rest, ParserReady s .idle b rest
  | .rxSelectByte b => ∃ rest, ParserReady s .select b rest
  | .rxHeaderByte b => ∃ rest, ParserReady s .header b rest
  | .rxHcStx => ∃ rest, ParserReady s .headerComplete 0x02#8 rest
  | .rxHcOther b => b ≠ 0x02#8 ∧ ∃ rest, ParserReady s .headerComplete b rest
  | .rxDataByte b => ∃ rest, ParserReady s .data b rest
  | .rxAeEnq => ∃ rest, ParserReady s .awaitingEnd 0x05#8 rest
  | .rxAeEot => ∃ rest, ParserReady s .awaitingEnd 0x04#8 rest
  | .rxAeOther b => b ≠ 0x05#8 ∧ b ≠ 0x04#8 ∧ ∃ rest, ParserReady s .awaitingEnd b rest
  | .cmdDone => s.alive = true ∧ s.busy = true ∧ s.txs = .txIdle
  | .cmdSend _ _ _ _ _ => s.alive = true ∧ s.busy = true ∧ s.txs = .txIdle
  | .txHdrAck => ∃ rest, SenderReady s .txHdrWait 0x06#8 rest
  | .txHdrOther b => b ≠ 0x06#8 ∧ ∃ rest, SenderReady s .txHdrWait b rest
  | .txTimeout => s.alive = true ∧ s.txs ≠ .txIdle ∧ s.rxq = []
  | .txDataAck => ∃ rest, SenderReady s .txDataWait 0x06#8 rest
  | .txDataOther b => b ≠ 0x06#8 ∧ ∃ rest, SenderReady s .txDataWait b rest
  | .envLinkFail => s.alive = true
  | _ => True

/-- The report a sender's wait makes of a non-ACK byte (R177, R180; 90_conflicts.md C6). -/
def answerReport (b : Byte) : Report :=
  if b = 0x15#8 ∨ b = 0x04#8 ∨ b = 0x03#8 then .noAnswer b else .error (.unexpectedHandshake b)

/-- A wait of a SEND that ends without ACK: the master may have appended bytes, then a non-ACK byte is consumed or the
timeout fires (R177, R178, R180). -/
def WaitFails (s t : State) : Prop :=
  ∃ (arrived : List Byte) (i : Instr),
    (i = .txTimeout ∨ ∃ b, b ≠ 0x06#8 ∧ (i = .txHdrOther b ∨ i = .txDataOther b)) ∧
      exec i { s with rxq := s.rxq ++ arrived } = .next t

/-- The nine control bytes with their values (R71). -/
def controlBytes : List (Instr × Byte) :=
  [(.sel, 0x31#8), (.soh, 0x01#8), (.stx, 0x02#8), (.etx, 0x03#8), (.eot, 0x04#8), (.enq, 0x05#8), (.ack, 0x06#8),
    (.wait, 0x10#8), (.nak, 0x15#8)]

/-- What stands on the link when an instruction's own part is followed by other bytes. -/
def followedBy (c : Cue) (rest : List Byte) : Cue :=
  match c with
  | .link bs => .link (bs ++ rest)
  | .command x => .command x

/-- The bytes of a received frame as `MON` records them (R217). -/
def rxTrace (bs : List Byte) : List (Dir × Byte) := bs.map fun b => (.rx, b)

/-- The bytes of a sent unit as `MON` records them (R217). -/
def txTrace (bs : List Byte) : List (Dir × Byte) := bs.map fun b => (.tx, b)

end Sys2Proof.Stmt

open Sys2Proof.Stmt

/-! ### Encoding -/

/-- A word of each family, written out from the layouts of R71 to R73 and R76, decodes to its instruction. -/
def Obligations.DecodeSampleWords : Prop :=
  decode (.parser .idle) none .control (.link [0b00110001#8]) = .instr .sel ∧
  decode (.parser .idle) none .control (.link [0b00010101#8]) = .instr .nak ∧
  decode (.parser .idle) none .frame (.link [0x31#8, 0x32#8, 0x20#8, 0x05#8]) = .instr (.select 0x32#8 0x20#8 0x05#8) ∧
  decode (.parser .idle) none .frame (.link [0x01#8, 0x06#8, 0x01#8, 0x31#8, 0x00#8, 0x20#8, 0x80#8, 0x01#8, 0x2B#8, 0xFB#8]) =
    .instr (.headerI16S16 0#5 false 0x0131#16 0x0020#16 0x80#8 0x012B#16 0xFB#8) ∧
  decode (.parser .headerComplete) (some 2) .frame (.link [0x02#8, 0x11#8, 0x22#8, 0x03#8, 0xC8#8]) =
    .instr (.data [0x11#8, 0x22#8] 0x03#8 0xC8#8) ∧
  decode (.parser .idle) none .event (.link [0x31#8]) = .instr .rxIdleSel ∧
  decode .hdrWait none .event (.link [0x06#8]) = .instr .txHdrAck

/-- Decoding what the encoder writes gives the instruction back, whatever follows it on the link; an event row is
read in its own consumer state, a control byte, a frame or a command in any. -/
def Obligations.DecodeEncodeRoundTrip : Prop :=
  ∀ (i : Instr) (c : Consumer) (rest : List Byte), i.wf = true →
    (isEvent i = true → c = consumerOf i) →
    decode c (declaredOf i) (grainOf i) (followedBy (encode i) rest) = .instr i

/-- Whatever the decoder reads from link bytes is well-formed and is exactly the front of those bytes: no bit of an
encoding is dropped and none is invented. -/
def Obligations.EncodeInvertsDecode : Prop :=
  ∀ (c : Consumer) (declared : Option Nat) (g : Grain) (bs : List Byte) (i : Instr),
    decode c declared g (.link bs) = .instr i →
      i.wf = true ∧ grainOf i = g ∧ ∃ front rest, encode i = .link front ∧ bs = front ++ rest

/-- `cks s` is the one byte that makes the sum zero (R81), and the sum is that of the naturals modulo 256 (R80). -/
def Obligations.ChecksumByteUnique : Prop :=
  ∀ (bs : List Byte) (c : Byte),
    (sum8 bs).toNat = sumNat bs ∧ (sum8 (bs ++ [c]) = 0#8 ↔ c = cks bs) ∧ cks bs = cksNat bs

/-- The frames a legal SEND builds have the length `fmt` gives and sum to zero, and a receiver that follows R121
reads the SEND's operands back from the header (95_test_vectors.md section 2.5, loop-back property). -/
def Obligations.SentHeaderParsesBack : Prop :=
  ∀ (p : Params) (dest src : DevId) (fnc : Byte) (size : Size), 1 ≤ size.toNat → size.toNat ≤ 65536 →
    let h := sendHeader p dest src fnc size
    sum8 h = 0#8 ∧ HeaderComplete h ∧ headerLatch (Memory.ofBytes h) = some ⟨dest, src, fnc, size⟩ ∧
      h = txHeaderOf p dest src fnc size

/-! ### Steps -/

/-- One step is one turn: the framer's turn runs the instruction the decoder reads from the head of `RXQ`, a command
runs as its own event, the master's byte is queued; with no turn left the framer takes its own at one event. -/
def Obligations.StepRunsDecoded : Prop :=
  (∀ (s : State) (g : Grain) (sc : List Turn) (i : Instr), s.script = .receive g :: sc → s.canConsume = true →
    decode s.consumer (s.latches.map fun l => l.size.toNat) g (.link s.rxq) = .instr i →
      step s = exec i { s with script := sc }) ∧
  (∀ (s : State) (i : Instr), s.script = [] → s.canConsume = true →
    decode s.consumer (s.latches.map fun l => l.size.toNat) .event (.link s.rxq) = .instr i → step s = exec i s) ∧
  (∀ (s : State) (sc : List Turn) (dest src : DevId) (fnc : Byte) (size : Size) (bytes : List Byte),
    (s.script = .command (.send dest src fnc size bytes) :: sc →
      step s = exec (.cmdSend dest src fnc size bytes) { s with script := sc }) ∧
    (s.script = .command .done :: sc → step s = exec .cmdDone { s with script := sc }) ∧
    (s.script = .command .timeout :: sc → step s = exec .txTimeout { s with script := sc }) ∧
    (s.script = .command .linkFail :: sc → step s = exec .envLinkFail { s with script := sc }) ∧
    (s.script = .command .reset :: sc → step s = exec .envReset { s with script := sc })) ∧
  (∀ (s : State) (b : Byte) (sc : List Turn), s.script = .arrive b :: sc → s.alive = true →
    step s = .next { s with script := sc, rxq := s.rxq ++ [b] })

/-- The framer consumes nothing, at any grain, while a window is open without a SEND, while the link is dead, and while
nothing is queued: such a turn has no step (R11, R43). -/
def Obligations.NoConsumerNoStep : Prop :=
  ∀ (s : State) (g : Grain) (sc : List Turn), s.script = .receive g :: sc →
    (s.rxq = [] → step s = .refused (.noStep .noByteQueued)) ∧
    (s.rxq ≠ [] → s.alive = true → s.busy = true → s.txs = .txIdle → step s = .refused (.noStep .noConsumer)) ∧
    (s.rxq ≠ [] → s.alive = false → step s = .refused (.noStep .noConsumer))

/-- An event whose rule is not enabled has no step (R11). -/
def Obligations.DisabledEventRefused : Prop :=
  ∀ (i : Instr) (s : State), isEvent i = true → ¬ Enabled i s → exec i s = .refused .notEnabled

/-! ### Idle and Select -/

/-- `RX.IDLE.SEL` (R101). -/
def Obligations.SelectMarkerOpensSelect : Prop :=
  ∀ (s : State) (rest : List Byte), ParserReady s .idle 0x31#8 rest →
    exec .rxIdleSel s = .next { s with rxq := rest, mon := s.mon ++ [(.rx, 0x31#8)], buf := [(0, 0x31#8)], rxs := .select }

/-- `RX.IDLE.SOH` (R102). -/
def Obligations.HeaderMarkerOpensHeader : Prop :=
  ∀ (s : State) (rest : List Byte), ParserReady s .idle 0x01#8 rest →
    exec .rxIdleSoh s = .next { s with rxq := rest, mon := s.mon ++ [(.rx, 0x01#8)], buf := [(0, 0x01#8)], rxs := .header }

/-- `RX.IDLE.OTHER` (R103). -/
def Obligations.UnassociatedByteDropped : Prop :=
  ∀ (s : State) (b : Byte) (rest : List Byte), b ≠ 0x31#8 → b ≠ 0x01#8 → ParserReady s .idle b rest →
    exec (.rxIdleOther b) s = .next { s with
      rxq := rest, mon := s.mon ++ [(.rx, b)], diag := s.diag ++ [.error (.unassociated b)] }

/-- `RX.SELECT.BYTE` (R104): the first bytes are stored; the fourth answers ACK iff the slaveID is registered and ends
the frame, whatever its own value (that it is not tested is the spec's decision D10). -/
def Obligations.SelectByteStoresThenAnswers : Prop :=
  ∀ (s : State) (b : Byte) (rest bs : List Byte), ParserReady s .select b rest → s.buf = Memory.ofBytes bs →
    (bs.length ≠ 3 → bs.length < 65539 →
      exec (.rxSelectByte b) s = .next { s with
        rxq := rest, mon := s.mon ++ [(.rx, b)], buf := Memory.ofBytes (bs ++ [b]) }) ∧
    (∀ m slave master, bs = [m, slave, master] →
      exec (.rxSelectByte b) s = .next { s with
        rxq := rest, buf := [], rxs := .idle
        mon := s.mon ++ [(.rx, b)] ++ (if slave.zeroExtend 16 ∈ s.cfg.reg then [(.tx, 0x06#8)] else [])
        txOut := s.txOut ++ (if slave.zeroExtend 16 ∈ s.cfg.reg then [0x06#8] else []) })

/-! ### Header -/

/-- `RX.HEADER.BYTE` before the last byte (R120): the step only appends. -/
def Obligations.HeaderByteStored : Prop :=
  ∀ (s : State) (b : Byte) (rest bs : List Byte), ParserReady s .header b rest → s.buf = Memory.ofBytes bs →
    bs.length < 65539 → ¬ HeaderComplete (bs ++ [b]) →
      exec (.rxHeaderByte b) s = .next { s with
        rxq := rest, mon := s.mon ++ [(.rx, b)], buf := Memory.ofBytes (bs ++ [b]) }

/-- `header_accept()` (R121): all four latches, one ACK, `HeaderComplete`. -/
def Obligations.GoodHeaderLatched : Prop :=
  ∀ (s : State) (b : Byte) (rest bs : List Byte) (did sid : DevId) (fnc : Byte) (field : Nat),
    ParserReady s .header b rest → s.buf = Memory.ofBytes bs →
    HeaderHas (bs ++ [b]) did sid fnc field → sumNat (bs ++ [b]) = 0 →
      exec (.rxHeaderByte b) s = .next { s with
        rxq := rest, mon := s.mon ++ [(.rx, b), (.tx, 0x06#8)], txOut := s.txOut ++ [0x06#8]
        latches := some ⟨did, sid, fnc, BitVec.ofNat 17 (field + 1)⟩, buf := [], rxs := .headerComplete }

/-- `HeaderChecksumError` (R122): NAK, the sum reported, the buffer emptied, `Idle`; the latches stay. -/
def Obligations.BadHeaderNaked : Prop :=
  ∀ (s : State) (b : Byte) (rest bs : List Byte),
    ParserReady s .header b rest → s.buf = Memory.ofBytes bs → HeaderComplete (bs ++ [b]) → sumNat (bs ++ [b]) ≠ 0 →
      exec (.rxHeaderByte b) s = .next { s with
        rxq := rest, mon := s.mon ++ [(.rx, b), (.tx, 0x15#8)], txOut := s.txOut ++ [0x15#8]
        diag := s.diag ++ [.error (.headerChecksum (BitVec.ofNat 8 (sumNat (bs ++ [b]))))], buf := [], rxs := .idle }

/-! ### HeaderComplete, Data, AwaitingEnd, dispatch -/

/-- `RX.HC.STX` (R140). -/
def Obligations.DataMarkerOpensData : Prop :=
  ∀ (s : State) (rest : List Byte), ParserReady s .headerComplete 0x02#8 rest →
    exec .rxHcStx s = .next { s with rxq := rest, mon := s.mon ++ [(.rx, 0x02#8)], buf := [(0, 0x02#8)], rxs := .data }

/-- `RX.HC.OTHER` (R141): the byte is gone and only the parse state changes, for 0x31 and 0x01 too (the
spec's decision D14). -/
def Obligations.OutOfBandByteSwallowed : Prop :=
  ∀ (s : State) (b : Byte) (rest : List Byte), b ≠ 0x02#8 → ParserReady s .headerComplete b rest →
    exec (.rxHcOther b) s = .next { s with
      rxq := rest, mon := s.mon ++ [(.rx, b)], diag := s.diag ++ [.error (.outOfBand b)], rxs := .idle }

/-- `RX.DATA.BYTE` (R142 to R144): stored; at the declared size plus 3 accepted iff the sum is zero, else NAKed with the
header still in force. That the byte at the 0x03 position is not tested is the spec's decision D11 (log 13). -/
def Obligations.DataByteStoredAckedOrNaked : Prop :=
  ∀ (s : State) (b : Byte) (rest bs : List Byte) (l : HeaderLatch),
    ParserReady s .data b rest → s.buf = Memory.ofBytes bs → bs.length < 65539 → s.latches = some l →
      exec (.rxDataByte b) s = .next
        (if bs.length + 1 ≠ l.size.toNat + 3 then
          { s with rxq := rest, mon := s.mon ++ [(.rx, b)], buf := Memory.ofBytes (bs ++ [b]) }
        else if sumNat (bs ++ [b]) = 0 then
          { s with rxq := rest, mon := s.mon ++ [(.rx, b), (.tx, 0x06#8)], txOut := s.txOut ++ [0x06#8]
                   buf := Memory.ofBytes (bs ++ [b]), rxs := .awaitingEnd }
        else
          { s with rxq := rest, mon := s.mon ++ [(.rx, b), (.tx, 0x15#8)], txOut := s.txOut ++ [0x15#8]
                   diag := s.diag ++ [.error (.dataChecksum (BitVec.ofNat 8 (sumNat (bs ++ [b]))))]
                   buf := [], rxs := .headerComplete })

/-- `RX.AE.ENQ` (R145). -/
def Obligations.EnquiryRepeatsAck : Prop :=
  ∀ (s : State) (rest : List Byte), ParserReady s .awaitingEnd 0x05#8 rest →
    exec .rxAeEnq s = .next { s with
      rxq := rest, mon := s.mon ++ [(.rx, 0x05#8), (.tx, 0x06#8)], txOut := s.txOut ++ [0x06#8] }

/-- `RX.AE.EOT` (R146, R150, R151): the request goes to the device registered under the latched destination, or is
reported; nothing is put on the link and the state is `HeaderComplete` (the spec's decisions D13, D26, D33). -/
def Obligations.EotDispatchesRequest : Prop :=
  ∀ (s : State) (rest bs : List Byte) (l : HeaderLatch),
    ParserReady s .awaitingEnd 0x04#8 rest → s.latches = some l → s.buf = Memory.ofBytes bs →
    l.size.toNat + 1 ≤ bs.length →
      exec .rxAeEot s = .next
        (if l.did ∈ s.cfg.reg then
          { s with rxq := rest, mon := s.mon ++ [(.rx, 0x04#8)], buf := [], rxs := .headerComplete, busy := true
                   reqOut := s.reqOut ++ [⟨l.did, l.sid, l.fnc, l.size, (bs.drop 1).take l.size.toNat⟩] }
        else
          { s with rxq := rest, mon := s.mon ++ [(.rx, 0x04#8)], buf := [], rxs := .headerComplete
                   diag := s.diag ++ [.error (.unregistered l.did)] })

/-- `RX.AE.OTHER` (R147; the spec's decision D12). -/
def Obligations.AwaitingEndDropsOthers : Prop :=
  ∀ (s : State) (b : Byte) (rest : List Byte), b ≠ 0x05#8 → b ≠ 0x04#8 → ParserReady s .awaitingEnd b rest →
    exec (.rxAeOther b) s = .next { s with
      rxq := rest, mon := s.mon ++ [(.rx, b)], diag := s.diag ++ [.error (.unexpectedInAwaitingEnd b)] }

/-- `CMD.DONE` (R152; the spec's decision D15). -/
def Obligations.DoneClosesWindow : Prop :=
  ∀ (s : State), s.alive = true → s.busy = true → s.txs = .txIdle → exec .cmdDone s = .next { s with busy := false }

/-- A second data frame under the header just served, and its EOT, dispatch the same IDs and function with the new
payload (R153, which the spec derives from R140, R142, R146). A frame and a control byte as instructions are the model's
choice, log 2. -/
def Obligations.PipelinedFollowUp : Prop :=
  ∀ (s : State) (payload rest : List Byte) (e c : Byte) (l : HeaderLatch),
    s.alive = true → s.busy = false → s.rxs = .headerComplete → s.latches = some l → l.did ∈ s.cfg.reg →
    1 ≤ l.size.toNat → l.size.toNat ≤ 65536 → payload.length = l.size.toNat →
    sumNat ([0x02#8] ++ payload ++ [e, c]) = 0 → s.rxq = [0x02#8] ++ payload ++ [e, c] ++ 0x04#8 :: rest →
      ∃ t u, exec (.data payload e c) s = .next t ∧ t.txOut = s.txOut ++ [0x06#8] ∧ exec .eot t = .next u ∧
        u.reqOut = s.reqOut ++ [⟨l.did, l.sid, l.fnc, l.size, payload⟩] ∧ u.txOut = t.txOut ∧ u.busy = true ∧
        u.rxs = .headerComplete ∧ u.latches = some l ∧ u.rxq = rest

/-! ### SEND -/

/-- `CMD.SEND` with legal operands in the window (R171 to R175): drain, both frames built, the header sent. The
choices inside the frames are the spec's decisions D8, D9, D27, D32 (R173, R174; log 13). -/
def Obligations.SendDrainsAndSendsHeader : Prop :=
  ∀ (s : State) (dest src : DevId) (fnc : Byte) (size : Size) (bytes : List Byte),
    s.alive = true → s.busy = true → s.txs = .txIdle →
    1 ≤ size.toNat → size.toNat ≤ 65536 → bytes.length = size.toNat →
      exec (.cmdSend dest src fnc size bytes) s = .next { s with
        rxq := [], mon := s.mon ++ rxTrace s.rxq ++ txTrace (txHeaderOf s.cfg dest src fnc size)
        txOut := s.txOut ++ txHeaderOf s.cfg dest src fnc size
        txHdr := txHeaderOf s.cfg dest src fnc size, txDat := txDataOf bytes, txRound := 1#3, txs := .txHdrWait }

/-- A SEND in the window with illegal operands has no step (R171; the ranges are the spec's decision D22). -/
def Obligations.IllegalSendRefused : Prop :=
  ∀ (s : State) (dest src : DevId) (fnc : Byte) (size : Size) (bytes : List Byte),
    s.alive = true → s.busy = true → s.txs = .txIdle →
    (size.toNat = 0 ∨ 65536 < size.toNat ∨ bytes.length ≠ size.toNat) →
      exec (.cmdSend dest src fnc size bytes) s = .refused .sendOperands

/-- `TX.HDR.ACK` (R176). -/
def Obligations.HeaderAckSendsData : Prop :=
  ∀ (s : State) (rest : List Byte), SenderReady s .txHdrWait 0x06#8 rest →
    exec .txHdrAck s = .next { s with
      rxq := rest, mon := s.mon ++ [(.rx, 0x06#8)] ++ txTrace s.txDat, txOut := s.txOut ++ s.txDat
      txRound := 1#3, txs := .txDataWait }

/-- `TX.HDR.OTHER` (R177, R181, R182): the header again, or in round 4 the SEND fails and nothing is sent (no EOT
after a failure is the spec's decision D17, log 13; that the failing step makes two `DIAG` entries is the model's reading,
log 11). -/
def Obligations.HeaderRetryOrFail : Prop :=
  ∀ (s : State) (b : Byte) (rest : List Byte), b ≠ 0x06#8 → SenderReady s .txHdrWait b rest →
    exec (.txHdrOther b) s = .next
      (if s.txRound.toNat < 4 then
        { s with rxq := rest, mon := s.mon ++ [(.rx, b)] ++ txTrace s.txHdr, txOut := s.txOut ++ s.txHdr
                 diag := s.diag ++ [answerReport b], txRound := s.txRound + 1#3 }
      else
        { s with rxq := rest, mon := s.mon ++ [(.rx, b)]
                 diag := s.diag ++ [answerReport b, .error (.sendFailure .txHdrWait)]
                 txStatus := .fail, txs := .txIdle, statusOut := s.statusOut ++ [.fail] })

/-- `TX.DATA.OTHER` (R180 to R182): the data frame again, or in round 4 the SEND fails and nothing is sent (no
EOT after a failure is the spec's decision D17, log 13; that the failing step makes two `DIAG` entries is the model's
reading, log 11). -/
def Obligations.DataRetryOrFail : Prop :=
  ∀ (s : State) (b : Byte) (rest : List Byte), b ≠ 0x06#8 → SenderReady s .txDataWait b rest →
    exec (.txDataOther b) s = .next
      (if s.txRound.toNat < 4 then
        { s with rxq := rest, mon := s.mon ++ [(.rx, b)] ++ txTrace s.txDat, txOut := s.txOut ++ s.txDat
                 diag := s.diag ++ [answerReport b], txRound := s.txRound + 1#3 }
      else
        { s with rxq := rest, mon := s.mon ++ [(.rx, b)]
                 diag := s.diag ++ [answerReport b, .error (.sendFailure .txDataWait)]
                 txStatus := .fail, txs := .txIdle, statusOut := s.statusOut ++ [.fail] })

/-- `TX.TIMEOUT` (R178): the unit of the phase again, or in round 4 the SEND fails (the spec's decisions D2, D16). -/
def Obligations.TimeoutRetriesOrFails : Prop :=
  ∀ (s : State), s.alive = true → s.rxq = [] → s.txs ≠ .txIdle →
    exec .txTimeout s = .next
      (if s.txRound.toNat < 4 then
        { s with mon := s.mon ++ txTrace (if s.txs = .txHdrWait then s.txHdr else s.txDat)
                 txOut := s.txOut ++ (if s.txs = .txHdrWait then s.txHdr else s.txDat)
                 diag := s.diag ++ [.noAnswerTimeout], txRound := s.txRound + 1#3 }
      else
        { s with diag := s.diag ++ [.noAnswerTimeout, .error (.sendFailure s.txs)]
                 txStatus := .fail, txs := .txIdle, statusOut := s.statusOut ++ [.fail] })

/-- `TX.DATA.ACK` (R179, R184): the closing EOT at once, `ok`; the window stays open. -/
def Obligations.DataAckEndsSend : Prop :=
  ∀ (s : State) (rest : List Byte), SenderReady s .txDataWait 0x06#8 rest →
    exec .txDataAck s = .next { s with
      rxq := rest, mon := s.mon ++ [(.rx, 0x06#8), (.tx, 0x04#8)], txOut := s.txOut ++ [0x04#8]
      txStatus := .ok, txs := .txIdle, statusOut := s.statusOut ++ [.ok] }

/-- The retry bound (R183, which the spec derives from R175 to R182): after a SEND whose four header waits end without ACK, whatever the master appended
meanwhile, the header was sent exactly four times and nothing else, the SEND has failed at the fourth wait and not
before, and the connection and the window are still there. -/
def Obligations.HeaderRetryBound : Prop :=
  ∀ (s s0 s1 s2 s3 s4 : State) (dest src : DevId) (fnc : Byte) (size : Size) (bytes : List Byte),
    exec (.cmdSend dest src fnc size bytes) s = .next s0 →
    WaitFails s0 s1 → WaitFails s1 s2 → WaitFails s2 s3 → WaitFails s3 s4 →
      let h := txHeaderOf s.cfg dest src fnc size
      s0.txs = .txHdrWait ∧ s1.txs = .txHdrWait ∧ s2.txs = .txHdrWait ∧ s3.txs = .txHdrWait ∧ s4.txs = .txIdle ∧
        s4.txOut = s.txOut ++ h ++ h ++ h ++ h ∧ s3.txStatus = s.txStatus ∧ s4.txStatus = .fail ∧
        s4.statusOut = s.statusOut ++ [.fail] ∧ s4.alive = true ∧ s4.busy = true

/-- The retry bound of the data phase (R183): once the header is acknowledged, four waits without ACK send the data
frame exactly four times, no EOT and no header again, and the SEND fails. -/
def Obligations.DataRetryBound : Prop :=
  ∀ (s s0 s1 s2 s3 s4 : State), s.busy = true → exec .txHdrAck s = .next s0 →
    WaitFails s0 s1 → WaitFails s1 s2 → WaitFails s2 s3 → WaitFails s3 s4 →
      s3.txs = .txDataWait ∧ s4.txs = .txIdle ∧
        s4.txOut = s.txOut ++ s.txDat ++ s.txDat ++ s.txDat ++ s.txDat ∧ s3.txStatus = s.txStatus ∧
        s4.txStatus = .fail ∧ s4.statusOut = s.statusOut ++ [.fail] ∧ s4.alive = true ∧ s4.busy = true

/-! ### Link failure and reset -/

/-- `ENV.LINK_FAIL` (R206): the connection dies; a SEND in progress gets `fail`; everything else is left as it is (the
spec's decision D19; that `STATUS` and `DIAG` stay as they are is the model's reading, logs 9 and 10). -/
def Obligations.LinkFailureKills : Prop :=
  ∀ (s : State), s.alive = true →
    exec .envLinkFail s = .next
      (if s.txs = .txIdle then { s with alive := false }
      else { s with alive := false, txStatus := .fail, txs := .txIdle })

/-- `ENV.RESET` (R230), enabled in every state; `TX_ROUND`, `TX_HDR`, `TX_DAT` get some values, and the statement says
nothing of them. The values are the spec's decision D20; that the ports' histories stay is the model's choice, log 8. -/
def Obligations.ResetEventRestoresIdle : Prop :=
  ∀ (s : State), ∃ (r : BitVec 3) (h d : List Byte) (n : Nat),
    exec .envReset s = .next { s with
      rxs := .idle, buf := [], latches := none, rxq := [], busy := false, alive := true
      txStatus := .none, txs := .txIdle, txRound := r, txHdr := h, txDat := d, freeCount := n }

/-- The reset state (R41, the spec's decision D20), without the values the spec leaves unspecified. -/
def Obligations.ResetStateValues : Prop :=
  State.reset.rxs = .idle ∧ State.reset.buf = [] ∧ State.reset.latches = none ∧ State.reset.rxq = [] ∧
    State.reset.busy = false ∧ State.reset.alive = true ∧ State.reset.txStatus = .none ∧ State.reset.txs = .txIdle ∧
    rxCode State.reset.rxs = 0#3 ∧ txCode State.reset.txs = 0#2

/-! ### Control bytes and frames -/

/-- A control byte that heads `RXQ` while somebody consumes does exactly what the event row of R89 for the present
consumer does with that byte, and is consumed. -/
def Obligations.ControlByteRunsItsEvent : Prop :=
  ∀ (s : State) (c i : Instr) (b : Byte) (rest : List Byte), s.Inv → s.canConsume = true → (c, b) ∈ controlBytes →
    s.rxq = b :: rest → decodeEvent s.consumer b = .instr i →
      ∃ t, exec c s = .next t ∧ exec i s = .next t ∧ t.rxq = rest

/-- A Select frame received in `Idle` (R72, R104, R105): one ACK iff the slaveID is registered, and nothing a later rule
reads is changed; neither the masterID nor the last byte matters. -/
def Obligations.SelectFrameAnswered : Prop :=
  ∀ (s : State) (slave master term : Byte) (rest : List Byte),
    s.alive = true → s.busy = false → s.rxs = .idle → s.rxq = [0x31#8, slave, master, term] ++ rest →
      exec (.select slave master term) s = .next { s with
        rxq := rest, buf := []
        mon := s.mon ++ rxTrace [0x31#8, slave, master, term] ++
          (if slave.zeroExtend 16 ∈ s.cfg.reg then [(.tx, 0x06#8)] else [])
        txOut := s.txOut ++ (if slave.zeroExtend 16 ∈ s.cfg.reg then [0x06#8] else []) }

/-- A header frame of any of the four layouts received in `Idle` (R73, R120 to R123): accepted iff the bytes sum to zero,
with no other condition on any field. -/
def Obligations.HeaderFrameAckedOrNaked : Prop :=
  ∀ (s : State) (i : Instr) (h rest : List Byte) (did sid : DevId) (fnc : Byte) (field : Nat),
    s.alive = true → s.busy = false → s.rxs = .idle →
    isHeader i = true → encode i = .link h → HeaderHas h did sid fnc field → s.rxq = h ++ rest →
      exec i s = .next
        (if sumNat h = 0 then
          { s with rxq := rest, mon := s.mon ++ rxTrace h ++ [(.tx, 0x06#8)], txOut := s.txOut ++ [0x06#8], buf := []
                   latches := some ⟨did, sid, fnc, BitVec.ofNat 17 (field + 1)⟩, rxs := .headerComplete }
        else
          { s with rxq := rest, mon := s.mon ++ rxTrace h ++ [(.tx, 0x15#8)], txOut := s.txOut ++ [0x15#8], buf := []
                   diag := s.diag ++ [.error (.headerChecksum (BitVec.ofNat 8 (sumNat h)))] })

/-- Every header layout's bytes have fields in the sense of R73, so the statement above leaves no header out. -/
def Obligations.EveryHeaderHasFields : Prop :=
  ∀ (i : Instr) (h : List Byte), isHeader i = true → encode i = .link h →
    HeaderComplete h ∧ ∃ did sid fnc field, HeaderHas h did sid fnc field

/-- A data frame of the declared size received in `HeaderComplete` (R76, R142 to R144): kept whole and ACKed iff the
bytes sum to zero, else NAKed with the header still in force; the byte at the 0x03 position is not tested. -/
def Obligations.DataFrameAckedOrNaked : Prop :=
  ∀ (s : State) (payload rest : List Byte) (e c : Byte) (l : HeaderLatch),
    s.alive = true → s.busy = false → s.rxs = .headerComplete → s.latches = some l →
    payload.length = l.size.toNat → l.size.toNat ≤ 65536 →
    s.rxq = [0x02#8] ++ payload ++ [e, c] ++ rest →
      exec (.data payload e c) s = .next
        (if sumNat ([0x02#8] ++ payload ++ [e, c]) = 0 then
          { s with rxq := rest, mon := s.mon ++ rxTrace ([0x02#8] ++ payload ++ [e, c]) ++ [(.tx, 0x06#8)]
                   txOut := s.txOut ++ [0x06#8], buf := Memory.ofBytes ([0x02#8] ++ payload ++ [e, c])
                   rxs := .awaitingEnd }
        else
          { s with rxq := rest, mon := s.mon ++ rxTrace ([0x02#8] ++ payload ++ [e, c]) ++ [(.tx, 0x15#8)]
                   txOut := s.txOut ++ [0x15#8], buf := []
                   diag := s.diag ++
                     [.error (.dataChecksum (BitVec.ofNat 8 (sumNat ([0x02#8] ++ payload ++ [e, c]))))] })

/-- A frame as one turn does what its bytes as single events do: where the bytes, one turn each, lead to `t`, the one
turn that runs the whole frame leads to the same `t`. The frame turn is the model's choice, log 2; the other direction is
`Obligations.FrameTurnStopsWithItsBytes`. -/
def Obligations.FrameTurnIsItsByteTurns : Prop :=
  ∀ (s t : State) (i : Instr) (bs : List Byte) (sc : List Turn),
    s.canConsume = true → decode s.consumer (s.latches.map fun l => l.size.toNat) .frame (.link s.rxq) = .instr i →
    encode i = .link bs →
    Sys2Proof.core.run bs.length { s with script := List.replicate bs.length (.receive .event) ++ sc } = .next t →
      step { s with script := .receive .frame :: sc } = .next t

/-! ### The whole machine -/

/-- The invariant of R40 (an inference the spec marks as its own; the buffer's form is the model's, log 14) holds at reset. -/
def Obligations.InvariantAtReset : Prop := State.reset.Inv

/-- Every step keeps the invariant of R40 (with the canonical form of the buffer and the range of `x[SIZE]`). -/
def Obligations.StepKeepsInvariant : Prop :=
  ∀ (s t : State), s.Inv → step s = .next t → t.Inv

/-- Under the invariant no step faults and no step reads an `unwritten` latch (R24, R40). -/
def Obligations.InvariantExcludesStops : Prop :=
  ∀ (s : State), s.Inv → (∀ f, step s ≠ .fault f) ∧ step s ≠ .refused .unwrittenLatch

/-- No step changes the registry or the sender's parameters (R34). -/
def Obligations.RegistryConstant : Prop := ∀ (s t : State), step s = .next t → t.cfg = s.cfg

/-- The latches are written by a header byte and by RESET only (R23, R230). -/
def Obligations.LatchWriters : Prop :=
  ∀ (i : Instr) (s t : State), isEvent i = true → exec i s = .next t →
    t.latches = s.latches ∨ (∃ b, i = .rxHeaderByte b) ∨ i = .envReset

/-- `BUSY` is set by dispatch and cleared by DONE and RESET; `ALIVE` is cleared by LINK_FAIL and set by RESET;
`TX_STATUS` is written where a SEND ends, by LINK_FAIL and by RESET (R28, R29, R30). -/
def Obligations.FlagWriters : Prop :=
  ∀ (i : Instr) (s t : State), isEvent i = true → exec i s = .next t →
    (t.busy = s.busy ∨ (i = .rxAeEot ∧ t.busy = true) ∨ ((i = .cmdDone ∨ i = .envReset) ∧ t.busy = false)) ∧
    (t.alive = s.alive ∨ (i = .envLinkFail ∧ t.alive = false) ∨ (i = .envReset ∧ t.alive = true)) ∧
    (t.txStatus = s.txStatus ∨ (i = .txDataAck ∧ t.txStatus = .ok) ∨
      (((∃ b, i = .txHdrOther b ∨ i = .txDataOther b) ∨ i = .txTimeout ∨ i = .envLinkFail) ∧ t.txStatus = .fail ∧
        t.txs = .txIdle) ∨
      (i = .envReset ∧ t.txStatus = .none))

/-- One record is put on the `REQ` port by an EOT consumed in `AwaitingEnd` with a registered destination, and none by
any other event; the step that dispatches puts nothing on the link (R150, R146). -/
def Obligations.OnlyEotDispatches : Prop :=
  ∀ (i : Instr) (s t : State), isEvent i = true → exec i s = .next t →
    t.reqOut = s.reqOut ∨
      (i = .rxAeEot ∧ s.rxs = .awaitingEnd ∧ t.busy = true ∧ t.txOut = s.txOut ∧
        ∃ l p, s.latches = some l ∧ l.did ∈ s.cfg.reg ∧ p.length = l.size.toNat ∧
          t.reqOut = s.reqOut ++ [⟨l.did, l.sid, l.fnc, l.size, p⟩])

/-- While a SEND is in progress the parser is frozen and nothing is dispatched, whatever the instruction, RESET apart;
an event then sends the header, the data frame, the closing EOT, or nothing (R185). -/
def Obligations.SendFreezesParser : Prop :=
  ∀ (i : Instr) (s t : State), s.busy = true → s.txs ≠ .txIdle → i ≠ .envReset → exec i s = .next t →
    t.rxs = s.rxs ∧ t.buf = s.buf ∧ t.latches = s.latches ∧ t.reqOut = s.reqOut ∧ t.busy = true ∧
      (isEvent i = true →
        t.txOut = s.txOut ∨ t.txOut = s.txOut ++ s.txHdr ∨ t.txOut = s.txOut ++ s.txDat ∨ t.txOut = s.txOut ++ [0x04#8])

/-- `TXOUT` only grows, at its end (R27, R60), and an instruction removes bytes of `RXQ` only from its head (R26, R60). -/
def Obligations.StreamsInOrder : Prop :=
  ∀ (i : Instr) (s t : State), exec i s = .next t → s.txOut <+: t.txOut ∧ t.rxq <:+ s.rxq

/-- The accumulating events store one byte at `len(BUF)` and leave every other offset as it was (R57). -/
def Obligations.AppendChangesOneByte : Prop :=
  ∀ (i : Instr) (b : Byte) (s t : State), (i = .rxSelectByte b ∨ i = .rxHeaderByte b ∨ i = .rxDataByte b) → s.buf.wf →
    exec i s = .next t → t.rxs = s.rxs →
      t.buf.read s.buf.length = some b ∧ t.buf.length = s.buf.length + 1 ∧
        ∀ a, a ≠ s.buf.length → t.buf.read a = s.buf.read a

/-- No step reads `MON` or `DIAG`: two runs that differ only there stay equal everywhere else, and stop alike (R35, R186). -/
def Obligations.TracesNotRead : Prop :=
  ∀ (s : State) (m : List (Dir × Byte)) (d : List Report),
    mapNext State.withoutTraces (step { s with mon := m, diag := d }) = mapNext State.withoutTraces (step s)

/-- Every byte put on `TXOUT` is recorded in `MON` as sent, in order (R9, R217). -/
def Obligations.SentBytesRecorded : Prop :=
  ∀ (s t : State), sentBytes s.mon = s.txOut → step s = .next t → sentBytes t.mon = t.txOut

/-- While `ALIVE = 0` the only step is RESET (R29, R206). -/
def Obligations.DeadUntilReset : Prop :=
  ∀ (s t : State), s.alive = false → step s = .next t →
    t.alive = true ∧ t.rxs = .idle ∧ ∃ sc, s.script = .command .reset :: sc

/-- In a quiescent state with no turn to come no framer step is enabled (R252). -/
def Obligations.QuiescentHasNoStep : Prop :=
  ∀ (s : State), s.quiescent = true → s.script = [] → step s = .refused (.noStep .noByteQueued)

/-- A frame turn adds no behaviour to the single events: where the one turn that runs a whole frame leads to `t`, the
first `k` of its bytes, one turn each, lead to the same `t`, and bytes are left over only because nobody consumes in `t`
(a dispatch opened the window or a SEND ended). The frame turn is the model's choice, log 2. -/
def Obligations.FrameTurnStopsWithItsBytes : Prop :=
  ∀ (s t : State) (i : Instr) (bs : List Byte) (sc : List Turn),
    decode s.consumer (s.latches.map fun l => l.size.toNat) .frame (.link s.rxq) = .instr i →
    encode i = .link bs → step { s with script := .receive .frame :: sc } = .next t →
      ∃ k, 1 ≤ k ∧ k ≤ bs.length ∧ (k = bs.length ∨ t.canConsume = false) ∧
        Sys2Proof.core.run k { s with script := List.replicate k (.receive .event) ++ sc } = .next t
end

