-- ==== Sys2Proof/Laws/Memory.lean ====
section
/-! SUPPORT. The buffer: every operation keeps the canonical form, and what a read gives (20_memory.md R50, R57, R58). -/

namespace Sys2Proof

@[simp] theorem Memory.bytes_nil : Memory.bytes [] = [] := rfl

@[simp] theorem Memory.bytes_length (m : Memory) : m.bytes.length = m.length := by
  simp [Memory.bytes]

@[simp] theorem Memory.bytes_append (m : Memory) (b : Byte) : (m.append b).bytes = m.bytes ++ [b] := by
  simp [Memory.bytes, Memory.append]

@[simp] theorem Memory.length_append (m : Memory) (b : Byte) : (m.append b).length = m.length + 1 := by
  simp [Memory.append]

@[simp] theorem Memory.bytes_single (k : Nat) (b : Byte) : Memory.bytes [(k, b)] = [b] := rfl

@[simp] theorem Memory.length_ofBytes (bs : List Byte) : (Memory.ofBytes bs).length = bs.length := by
  simp [Memory.ofBytes]

@[simp] theorem Memory.bytes_ofBytes (bs : List Byte) : (Memory.ofBytes bs).bytes = bs := by
  simp only [Memory.ofBytes, Memory.bytes, List.map_map]
  exact (List.zipIdx_map_fst 0 bs)

@[simp] theorem Memory.ofBytes_nil : Memory.ofBytes [] = [] := rfl

theorem Memory.wf_nil : Memory.wf [] := by simp [Memory.wf]

theorem Memory.wf_single (b : Byte) : Memory.wf [(0, b)] := by simp [Memory.wf]

theorem Memory.wf_append {m : Memory} (h : m.wf) (b : Byte) : (m.append b).wf := by
  simp only [Memory.wf, Memory.append, List.map_append, List.length_append] at *
  simp [h, List.range_succ]

theorem Memory.wf_ofBytes (bs : List Byte) : (Memory.ofBytes bs).wf := by
  simp only [Memory.wf, Memory.ofBytes, List.map_map, List.length_map, List.length_zipIdx]
  rw [List.range_eq_range']
  exact List.zipIdx_map_snd 0 bs

/-- The canonical form fixes the buffer by its bytes. -/
theorem Memory.eq_ofBytes {m : Memory} (h : m.wf) : m = Memory.ofBytes m.bytes := by
  have key : ∀ (m' m : Memory), m'.map Prod.fst = m.map Prod.fst → m'.map Prod.snd = m.map Prod.snd → m' = m := by
    intro m' m h1 h2
    exact List.ext_getElem (by simpa using congrArg List.length h1) fun i hi hi' => by
      have e1 := List.getElem_of_eq h1 (by simpa using hi)
      have e2 := List.getElem_of_eq h2 (by simpa using hi)
      simp only [List.getElem_map] at e1 e2
      exact Prod.ext e1 e2
  have w := Memory.wf_ofBytes m.bytes
  refine key _ _ ?_ ?_
  · rw [Memory.wf] at h w
    rw [h, w]
    simp
  · exact (Memory.bytes_ofBytes m.bytes).symm

@[simp] theorem Memory.ofBytes_append (bs : List Byte) (b : Byte) :
    (Memory.ofBytes bs).append b = Memory.ofBytes (bs ++ [b]) := by
  have h := Memory.eq_ofBytes (Memory.wf_append (Memory.wf_ofBytes bs) b)
  simpa using h

/-- A strictly rising list of offsets, as the canonical form gives it. -/
theorem Memory.rising {m : Memory} (h : m.wf) : (m.map Prod.fst).Pairwise (· < ·) := by
  rw [h]
  exact List.pairwise_lt_range

theorem Memory.read_from (bs : List Byte) (k a : Nat) :
    Memory.read ((bs.zipIdx k).map fun p => (p.2, p.1)) a = if k ≤ a then bs[a - k]? else none := by
  induction bs generalizing k with
  | nil => simp [Memory.read]
  | cons b bs ih =>
    simp only [List.zipIdx_cons, List.map_cons, Memory.read, ih]
    by_cases h : k = a
    · subst h; simp
    · by_cases h2 : k + 1 ≤ a
      · have : a - k = (a - (k + 1)) + 1 := by omega
        simp [h, h2, this, show k ≤ a by omega]
      · simp [h, h2, show ¬ k ≤ a by omega]

/-- A read is the byte at that offset, where there is one. -/
@[simp] theorem Memory.read_ofBytes (bs : List Byte) (a : Nat) : (Memory.ofBytes bs).read a = bs[a]? := by
  simpa [Memory.ofBytes] using Memory.read_from bs 0 a

theorem Memory.read_of_wf {m : Memory} (h : m.wf) (a : Nat) : m.read a = m.bytes[a]? := by
  have e := Memory.read_ofBytes m.bytes a
  rwa [← Memory.eq_ofBytes h] at e

/-- A sequence read is the slice, where the buffer reaches that far. -/
theorem Memory.readSeq_ofBytes (bs : List Byte) (a n : Nat) (h : a + n ≤ bs.length) :
    (Memory.ofBytes bs).readSeq a n = some ((bs.drop a).take n) := by
  induction n generalizing a with
  | zero => simp [Memory.readSeq]
  | succ n ih =>
    have ha : a < bs.length := by omega
    simp only [Memory.readSeq, ih (a + 1) (by omega), Memory.read_ofBytes, List.getElem?_eq_getElem ha]
    rw [List.drop_eq_getElem_cons ha, List.take_succ_cons]

/-- An append leaves every lower offset as it was (R57). -/
theorem Memory.read_append_below {m : Memory} (h : m.wf) (b : Byte) {a : Nat} (ha : a < m.length) :
    (m.append b).read a = m.read a := by
  rw [Memory.read_of_wf (Memory.wf_append h b), Memory.read_of_wf h]
  simp [List.getElem?_append, ha]

/-- An append stores at the old length (R57). -/
theorem Memory.read_append_at {m : Memory} (h : m.wf) (b : Byte) : (m.append b).read m.length = some b := by
  rw [Memory.read_of_wf (Memory.wf_append h b)]
  simp

/-- An offset holds a byte exactly below the length (R9). -/
theorem Memory.read_isSome_iff {m : Memory} (h : m.wf) {a : Nat} : (∃ b, m.read a = some b) ↔ a < m.length := by
  rw [Memory.read_of_wf h]
  simp [List.getElem?_eq_some_iff]

/-- A sequence read has the length asked for. -/
theorem Memory.readSeq_length {m : Memory} {a n : Nat} {p : List Byte} (h : m.readSeq a n = some p) : p.length = n := by
  induction n generalizing a p with
  | zero =>
    simp only [Memory.readSeq, Option.some.injEq] at h
    simp [← h]
  | succ n ih =>
    simp only [Memory.readSeq] at h
    split at h
    · next h2 =>
      cases h
      simp [ih h2]
    · cases h

end Sys2Proof
end

