-- ==== Sys2Proof/Laws/State.lean ====
section
/-! SUPPORT. One lemma per field per update of State, true by rfl, so that no proof unfolds a record update. -/

namespace Sys2Proof.Machine

/-! ### `State.openWindow` -/

@[simp] theorem State.openWindow_rxs (s : State) (r : Request) : (s.openWindow r).rxs = s.rxs := rfl
@[simp] theorem State.openWindow_buf (s : State) (r : Request) : (s.openWindow r).buf = s.buf := rfl
@[simp] theorem State.openWindow_latches (s : State) (r : Request) : (s.openWindow r).latches = s.latches := rfl
@[simp] theorem State.openWindow_rxq (s : State) (r : Request) : (s.openWindow r).rxq = s.rxq := rfl
@[simp] theorem State.openWindow_txOut (s : State) (r : Request) : (s.openWindow r).txOut = s.txOut := rfl
@[simp] theorem State.openWindow_busy (s : State) (r : Request) : (s.openWindow r).busy = true := rfl
@[simp] theorem State.openWindow_alive (s : State) (r : Request) : (s.openWindow r).alive = s.alive := rfl
@[simp] theorem State.openWindow_txStatus (s : State) (r : Request) : (s.openWindow r).txStatus = s.txStatus := rfl
@[simp] theorem State.openWindow_txs (s : State) (r : Request) : (s.openWindow r).txs = s.txs := rfl
@[simp] theorem State.openWindow_txRound (s : State) (r : Request) : (s.openWindow r).txRound = s.txRound := rfl
@[simp] theorem State.openWindow_txHdr (s : State) (r : Request) : (s.openWindow r).txHdr = s.txHdr := rfl
@[simp] theorem State.openWindow_txDat (s : State) (r : Request) : (s.openWindow r).txDat = s.txDat := rfl
@[simp] theorem State.openWindow_cfg (s : State) (r : Request) : (s.openWindow r).cfg = s.cfg := rfl
@[simp] theorem State.openWindow_mon (s : State) (r : Request) : (s.openWindow r).mon = s.mon := rfl
@[simp] theorem State.openWindow_diag (s : State) (r : Request) : (s.openWindow r).diag = s.diag := rfl
@[simp] theorem State.openWindow_reqOut (s : State) (r : Request) : (s.openWindow r).reqOut = s.reqOut ++ [r] := rfl
@[simp] theorem State.openWindow_statusOut (s : State) (r : Request) : (s.openWindow r).statusOut = s.statusOut := rfl
@[simp] theorem State.openWindow_script (s : State) (r : Request) : (s.openWindow r).script = s.script := rfl
@[simp] theorem State.openWindow_freeCount (s : State) (r : Request) : (s.openWindow r).freeCount = s.freeCount := rfl

/-! ### `State.closeWindow` -/

@[simp] theorem State.closeWindow_rxs (s : State) : (s.closeWindow).rxs = s.rxs := rfl
@[simp] theorem State.closeWindow_buf (s : State) : (s.closeWindow).buf = s.buf := rfl
@[simp] theorem State.closeWindow_latches (s : State) : (s.closeWindow).latches = s.latches := rfl
@[simp] theorem State.closeWindow_rxq (s : State) : (s.closeWindow).rxq = s.rxq := rfl
@[simp] theorem State.closeWindow_txOut (s : State) : (s.closeWindow).txOut = s.txOut := rfl
@[simp] theorem State.closeWindow_busy (s : State) : (s.closeWindow).busy = false := rfl
@[simp] theorem State.closeWindow_alive (s : State) : (s.closeWindow).alive = s.alive := rfl
@[simp] theorem State.closeWindow_txStatus (s : State) : (s.closeWindow).txStatus = s.txStatus := rfl
@[simp] theorem State.closeWindow_txs (s : State) : (s.closeWindow).txs = s.txs := rfl
@[simp] theorem State.closeWindow_txRound (s : State) : (s.closeWindow).txRound = s.txRound := rfl
@[simp] theorem State.closeWindow_txHdr (s : State) : (s.closeWindow).txHdr = s.txHdr := rfl
@[simp] theorem State.closeWindow_txDat (s : State) : (s.closeWindow).txDat = s.txDat := rfl
@[simp] theorem State.closeWindow_cfg (s : State) : (s.closeWindow).cfg = s.cfg := rfl
@[simp] theorem State.closeWindow_mon (s : State) : (s.closeWindow).mon = s.mon := rfl
@[simp] theorem State.closeWindow_diag (s : State) : (s.closeWindow).diag = s.diag := rfl
@[simp] theorem State.closeWindow_reqOut (s : State) : (s.closeWindow).reqOut = s.reqOut := rfl
@[simp] theorem State.closeWindow_statusOut (s : State) : (s.closeWindow).statusOut = s.statusOut := rfl
@[simp] theorem State.closeWindow_script (s : State) : (s.closeWindow).script = s.script := rfl
@[simp] theorem State.closeWindow_freeCount (s : State) : (s.closeWindow).freeCount = s.freeCount := rfl

/-! ### `State.finishSend` -/

@[simp] theorem State.finishSend_rxs (s : State) (r : TxStatus) : (s.finishSend r).rxs = s.rxs := rfl
@[simp] theorem State.finishSend_buf (s : State) (r : TxStatus) : (s.finishSend r).buf = s.buf := rfl
@[simp] theorem State.finishSend_latches (s : State) (r : TxStatus) : (s.finishSend r).latches = s.latches := rfl
@[simp] theorem State.finishSend_rxq (s : State) (r : TxStatus) : (s.finishSend r).rxq = s.rxq := rfl
@[simp] theorem State.finishSend_txOut (s : State) (r : TxStatus) : (s.finishSend r).txOut = s.txOut := rfl
@[simp] theorem State.finishSend_busy (s : State) (r : TxStatus) : (s.finishSend r).busy = s.busy := rfl
@[simp] theorem State.finishSend_alive (s : State) (r : TxStatus) : (s.finishSend r).alive = s.alive := rfl
@[simp] theorem State.finishSend_txStatus (s : State) (r : TxStatus) : (s.finishSend r).txStatus = r := rfl
@[simp] theorem State.finishSend_txs (s : State) (r : TxStatus) : (s.finishSend r).txs = .txIdle := rfl
@[simp] theorem State.finishSend_txRound (s : State) (r : TxStatus) : (s.finishSend r).txRound = s.txRound := rfl
@[simp] theorem State.finishSend_txHdr (s : State) (r : TxStatus) : (s.finishSend r).txHdr = s.txHdr := rfl
@[simp] theorem State.finishSend_txDat (s : State) (r : TxStatus) : (s.finishSend r).txDat = s.txDat := rfl
@[simp] theorem State.finishSend_cfg (s : State) (r : TxStatus) : (s.finishSend r).cfg = s.cfg := rfl
@[simp] theorem State.finishSend_mon (s : State) (r : TxStatus) : (s.finishSend r).mon = s.mon := rfl
@[simp] theorem State.finishSend_diag (s : State) (r : TxStatus) : (s.finishSend r).diag = s.diag := rfl
@[simp] theorem State.finishSend_reqOut (s : State) (r : TxStatus) : (s.finishSend r).reqOut = s.reqOut := rfl
@[simp] theorem State.finishSend_statusOut (s : State) (r : TxStatus) : (s.finishSend r).statusOut = s.statusOut ++ [r] := rfl
@[simp] theorem State.finishSend_script (s : State) (r : TxStatus) : (s.finishSend r).script = s.script := rfl
@[simp] theorem State.finishSend_freeCount (s : State) (r : TxStatus) : (s.finishSend r).freeCount = s.freeCount := rfl

/-! ### `State.taken` -/

@[simp] theorem State.taken_rxs (s : State) (b : Byte) (rest : List Byte) : (s.taken b rest).rxs = s.rxs := rfl
@[simp] theorem State.taken_buf (s : State) (b : Byte) (rest : List Byte) : (s.taken b rest).buf = s.buf := rfl
@[simp] theorem State.taken_latches (s : State) (b : Byte) (rest : List Byte) : (s.taken b rest).latches = s.latches := rfl
@[simp] theorem State.taken_rxq (s : State) (b : Byte) (rest : List Byte) : (s.taken b rest).rxq = rest := rfl
@[simp] theorem State.taken_txOut (s : State) (b : Byte) (rest : List Byte) : (s.taken b rest).txOut = s.txOut := rfl
@[simp] theorem State.taken_busy (s : State) (b : Byte) (rest : List Byte) : (s.taken b rest).busy = s.busy := rfl
@[simp] theorem State.taken_alive (s : State) (b : Byte) (rest : List Byte) : (s.taken b rest).alive = s.alive := rfl
@[simp] theorem State.taken_txStatus (s : State) (b : Byte) (rest : List Byte) : (s.taken b rest).txStatus = s.txStatus := rfl
@[simp] theorem State.taken_txs (s : State) (b : Byte) (rest : List Byte) : (s.taken b rest).txs = s.txs := rfl
@[simp] theorem State.taken_txRound (s : State) (b : Byte) (rest : List Byte) : (s.taken b rest).txRound = s.txRound := rfl
@[simp] theorem State.taken_txHdr (s : State) (b : Byte) (rest : List Byte) : (s.taken b rest).txHdr = s.txHdr := rfl
@[simp] theorem State.taken_txDat (s : State) (b : Byte) (rest : List Byte) : (s.taken b rest).txDat = s.txDat := rfl
@[simp] theorem State.taken_cfg (s : State) (b : Byte) (rest : List Byte) : (s.taken b rest).cfg = s.cfg := rfl
@[simp] theorem State.taken_mon (s : State) (b : Byte) (rest : List Byte) : (s.taken b rest).mon = s.mon ++ [(.rx, b)] := rfl
@[simp] theorem State.taken_diag (s : State) (b : Byte) (rest : List Byte) : (s.taken b rest).diag = s.diag := rfl
@[simp] theorem State.taken_reqOut (s : State) (b : Byte) (rest : List Byte) : (s.taken b rest).reqOut = s.reqOut := rfl
@[simp] theorem State.taken_statusOut (s : State) (b : Byte) (rest : List Byte) : (s.taken b rest).statusOut = s.statusOut := rfl
@[simp] theorem State.taken_script (s : State) (b : Byte) (rest : List Byte) : (s.taken b rest).script = s.script := rfl
@[simp] theorem State.taken_freeCount (s : State) (b : Byte) (rest : List Byte) : (s.taken b rest).freeCount = s.freeCount := rfl

/-! ### `State.emit` -/

@[simp] theorem State.emit_rxs (s : State) (b : Byte) : (s.emit b).rxs = s.rxs := rfl
@[simp] theorem State.emit_buf (s : State) (b : Byte) : (s.emit b).buf = s.buf := rfl
@[simp] theorem State.emit_latches (s : State) (b : Byte) : (s.emit b).latches = s.latches := rfl
@[simp] theorem State.emit_rxq (s : State) (b : Byte) : (s.emit b).rxq = s.rxq := rfl
@[simp] theorem State.emit_txOut (s : State) (b : Byte) : (s.emit b).txOut = s.txOut ++ [b] := rfl
@[simp] theorem State.emit_busy (s : State) (b : Byte) : (s.emit b).busy = s.busy := rfl
@[simp] theorem State.emit_alive (s : State) (b : Byte) : (s.emit b).alive = s.alive := rfl
@[simp] theorem State.emit_txStatus (s : State) (b : Byte) : (s.emit b).txStatus = s.txStatus := rfl
@[simp] theorem State.emit_txs (s : State) (b : Byte) : (s.emit b).txs = s.txs := rfl
@[simp] theorem State.emit_txRound (s : State) (b : Byte) : (s.emit b).txRound = s.txRound := rfl
@[simp] theorem State.emit_txHdr (s : State) (b : Byte) : (s.emit b).txHdr = s.txHdr := rfl
@[simp] theorem State.emit_txDat (s : State) (b : Byte) : (s.emit b).txDat = s.txDat := rfl
@[simp] theorem State.emit_cfg (s : State) (b : Byte) : (s.emit b).cfg = s.cfg := rfl
@[simp] theorem State.emit_mon (s : State) (b : Byte) : (s.emit b).mon = s.mon ++ [(.tx, b)] := rfl
@[simp] theorem State.emit_diag (s : State) (b : Byte) : (s.emit b).diag = s.diag := rfl
@[simp] theorem State.emit_reqOut (s : State) (b : Byte) : (s.emit b).reqOut = s.reqOut := rfl
@[simp] theorem State.emit_statusOut (s : State) (b : Byte) : (s.emit b).statusOut = s.statusOut := rfl
@[simp] theorem State.emit_script (s : State) (b : Byte) : (s.emit b).script = s.script := rfl
@[simp] theorem State.emit_freeCount (s : State) (b : Byte) : (s.emit b).freeCount = s.freeCount := rfl

/-! ### `State.emitSeq` -/

@[simp] theorem State.emitSeq_rxs (s : State) (bs : List Byte) : (s.emitSeq bs).rxs = s.rxs := rfl
@[simp] theorem State.emitSeq_buf (s : State) (bs : List Byte) : (s.emitSeq bs).buf = s.buf := rfl
@[simp] theorem State.emitSeq_latches (s : State) (bs : List Byte) : (s.emitSeq bs).latches = s.latches := rfl
@[simp] theorem State.emitSeq_rxq (s : State) (bs : List Byte) : (s.emitSeq bs).rxq = s.rxq := rfl
@[simp] theorem State.emitSeq_txOut (s : State) (bs : List Byte) : (s.emitSeq bs).txOut = s.txOut ++ bs := rfl
@[simp] theorem State.emitSeq_busy (s : State) (bs : List Byte) : (s.emitSeq bs).busy = s.busy := rfl
@[simp] theorem State.emitSeq_alive (s : State) (bs : List Byte) : (s.emitSeq bs).alive = s.alive := rfl
@[simp] theorem State.emitSeq_txStatus (s : State) (bs : List Byte) : (s.emitSeq bs).txStatus = s.txStatus := rfl
@[simp] theorem State.emitSeq_txs (s : State) (bs : List Byte) : (s.emitSeq bs).txs = s.txs := rfl
@[simp] theorem State.emitSeq_txRound (s : State) (bs : List Byte) : (s.emitSeq bs).txRound = s.txRound := rfl
@[simp] theorem State.emitSeq_txHdr (s : State) (bs : List Byte) : (s.emitSeq bs).txHdr = s.txHdr := rfl
@[simp] theorem State.emitSeq_txDat (s : State) (bs : List Byte) : (s.emitSeq bs).txDat = s.txDat := rfl
@[simp] theorem State.emitSeq_cfg (s : State) (bs : List Byte) : (s.emitSeq bs).cfg = s.cfg := rfl
@[simp] theorem State.emitSeq_mon (s : State) (bs : List Byte) : (s.emitSeq bs).mon = s.mon ++ bs.map fun b => (.tx, b) := rfl
@[simp] theorem State.emitSeq_diag (s : State) (bs : List Byte) : (s.emitSeq bs).diag = s.diag := rfl
@[simp] theorem State.emitSeq_reqOut (s : State) (bs : List Byte) : (s.emitSeq bs).reqOut = s.reqOut := rfl
@[simp] theorem State.emitSeq_statusOut (s : State) (bs : List Byte) : (s.emitSeq bs).statusOut = s.statusOut := rfl
@[simp] theorem State.emitSeq_script (s : State) (bs : List Byte) : (s.emitSeq bs).script = s.script := rfl
@[simp] theorem State.emitSeq_freeCount (s : State) (bs : List Byte) : (s.emitSeq bs).freeCount = s.freeCount := rfl

/-! ### `State.report` -/

@[simp] theorem State.report_rxs (s : State) (r : Report) : (s.report r).rxs = s.rxs := rfl
@[simp] theorem State.report_buf (s : State) (r : Report) : (s.report r).buf = s.buf := rfl
@[simp] theorem State.report_latches (s : State) (r : Report) : (s.report r).latches = s.latches := rfl
@[simp] theorem State.report_rxq (s : State) (r : Report) : (s.report r).rxq = s.rxq := rfl
@[simp] theorem State.report_txOut (s : State) (r : Report) : (s.report r).txOut = s.txOut := rfl
@[simp] theorem State.report_busy (s : State) (r : Report) : (s.report r).busy = s.busy := rfl
@[simp] theorem State.report_alive (s : State) (r : Report) : (s.report r).alive = s.alive := rfl
@[simp] theorem State.report_txStatus (s : State) (r : Report) : (s.report r).txStatus = s.txStatus := rfl
@[simp] theorem State.report_txs (s : State) (r : Report) : (s.report r).txs = s.txs := rfl
@[simp] theorem State.report_txRound (s : State) (r : Report) : (s.report r).txRound = s.txRound := rfl
@[simp] theorem State.report_txHdr (s : State) (r : Report) : (s.report r).txHdr = s.txHdr := rfl
@[simp] theorem State.report_txDat (s : State) (r : Report) : (s.report r).txDat = s.txDat := rfl
@[simp] theorem State.report_cfg (s : State) (r : Report) : (s.report r).cfg = s.cfg := rfl
@[simp] theorem State.report_mon (s : State) (r : Report) : (s.report r).mon = s.mon := rfl
@[simp] theorem State.report_diag (s : State) (r : Report) : (s.report r).diag = s.diag ++ [r] := rfl
@[simp] theorem State.report_reqOut (s : State) (r : Report) : (s.report r).reqOut = s.reqOut := rfl
@[simp] theorem State.report_statusOut (s : State) (r : Report) : (s.report r).statusOut = s.statusOut := rfl
@[simp] theorem State.report_script (s : State) (r : Report) : (s.report r).script = s.script := rfl
@[simp] theorem State.report_freeCount (s : State) (r : Report) : (s.report r).freeCount = s.freeCount := rfl

/-! ### `State.setRxs` -/

@[simp] theorem State.setRxs_rxs (s : State) (r : RxState) : (s.setRxs r).rxs = r := rfl
@[simp] theorem State.setRxs_buf (s : State) (r : RxState) : (s.setRxs r).buf = s.buf := rfl
@[simp] theorem State.setRxs_latches (s : State) (r : RxState) : (s.setRxs r).latches = s.latches := rfl
@[simp] theorem State.setRxs_rxq (s : State) (r : RxState) : (s.setRxs r).rxq = s.rxq := rfl
@[simp] theorem State.setRxs_txOut (s : State) (r : RxState) : (s.setRxs r).txOut = s.txOut := rfl
@[simp] theorem State.setRxs_busy (s : State) (r : RxState) : (s.setRxs r).busy = s.busy := rfl
@[simp] theorem State.setRxs_alive (s : State) (r : RxState) : (s.setRxs r).alive = s.alive := rfl
@[simp] theorem State.setRxs_txStatus (s : State) (r : RxState) : (s.setRxs r).txStatus = s.txStatus := rfl
@[simp] theorem State.setRxs_txs (s : State) (r : RxState) : (s.setRxs r).txs = s.txs := rfl
@[simp] theorem State.setRxs_txRound (s : State) (r : RxState) : (s.setRxs r).txRound = s.txRound := rfl
@[simp] theorem State.setRxs_txHdr (s : State) (r : RxState) : (s.setRxs r).txHdr = s.txHdr := rfl
@[simp] theorem State.setRxs_txDat (s : State) (r : RxState) : (s.setRxs r).txDat = s.txDat := rfl
@[simp] theorem State.setRxs_cfg (s : State) (r : RxState) : (s.setRxs r).cfg = s.cfg := rfl
@[simp] theorem State.setRxs_mon (s : State) (r : RxState) : (s.setRxs r).mon = s.mon := rfl
@[simp] theorem State.setRxs_diag (s : State) (r : RxState) : (s.setRxs r).diag = s.diag := rfl
@[simp] theorem State.setRxs_reqOut (s : State) (r : RxState) : (s.setRxs r).reqOut = s.reqOut := rfl
@[simp] theorem State.setRxs_statusOut (s : State) (r : RxState) : (s.setRxs r).statusOut = s.statusOut := rfl
@[simp] theorem State.setRxs_script (s : State) (r : RxState) : (s.setRxs r).script = s.script := rfl
@[simp] theorem State.setRxs_freeCount (s : State) (r : RxState) : (s.setRxs r).freeCount = s.freeCount := rfl

/-! ### `State.setBuf` -/

@[simp] theorem State.setBuf_rxs (s : State) (m : Memory) : (s.setBuf m).rxs = s.rxs := rfl
@[simp] theorem State.setBuf_buf (s : State) (m : Memory) : (s.setBuf m).buf = m := rfl
@[simp] theorem State.setBuf_latches (s : State) (m : Memory) : (s.setBuf m).latches = s.latches := rfl
@[simp] theorem State.setBuf_rxq (s : State) (m : Memory) : (s.setBuf m).rxq = s.rxq := rfl
@[simp] theorem State.setBuf_txOut (s : State) (m : Memory) : (s.setBuf m).txOut = s.txOut := rfl
@[simp] theorem State.setBuf_busy (s : State) (m : Memory) : (s.setBuf m).busy = s.busy := rfl
@[simp] theorem State.setBuf_alive (s : State) (m : Memory) : (s.setBuf m).alive = s.alive := rfl
@[simp] theorem State.setBuf_txStatus (s : State) (m : Memory) : (s.setBuf m).txStatus = s.txStatus := rfl
@[simp] theorem State.setBuf_txs (s : State) (m : Memory) : (s.setBuf m).txs = s.txs := rfl
@[simp] theorem State.setBuf_txRound (s : State) (m : Memory) : (s.setBuf m).txRound = s.txRound := rfl
@[simp] theorem State.setBuf_txHdr (s : State) (m : Memory) : (s.setBuf m).txHdr = s.txHdr := rfl
@[simp] theorem State.setBuf_txDat (s : State) (m : Memory) : (s.setBuf m).txDat = s.txDat := rfl
@[simp] theorem State.setBuf_cfg (s : State) (m : Memory) : (s.setBuf m).cfg = s.cfg := rfl
@[simp] theorem State.setBuf_mon (s : State) (m : Memory) : (s.setBuf m).mon = s.mon := rfl
@[simp] theorem State.setBuf_diag (s : State) (m : Memory) : (s.setBuf m).diag = s.diag := rfl
@[simp] theorem State.setBuf_reqOut (s : State) (m : Memory) : (s.setBuf m).reqOut = s.reqOut := rfl
@[simp] theorem State.setBuf_statusOut (s : State) (m : Memory) : (s.setBuf m).statusOut = s.statusOut := rfl
@[simp] theorem State.setBuf_script (s : State) (m : Memory) : (s.setBuf m).script = s.script := rfl
@[simp] theorem State.setBuf_freeCount (s : State) (m : Memory) : (s.setBuf m).freeCount = s.freeCount := rfl

/-! ### `State.setLatches` -/

@[simp] theorem State.setLatches_rxs (s : State) (l : HeaderLatch) : (s.setLatches l).rxs = s.rxs := rfl
@[simp] theorem State.setLatches_buf (s : State) (l : HeaderLatch) : (s.setLatches l).buf = s.buf := rfl
@[simp] theorem State.setLatches_latches (s : State) (l : HeaderLatch) : (s.setLatches l).latches = some l := rfl
@[simp] theorem State.setLatches_rxq (s : State) (l : HeaderLatch) : (s.setLatches l).rxq = s.rxq := rfl
@[simp] theorem State.setLatches_txOut (s : State) (l : HeaderLatch) : (s.setLatches l).txOut = s.txOut := rfl
@[simp] theorem State.setLatches_busy (s : State) (l : HeaderLatch) : (s.setLatches l).busy = s.busy := rfl
@[simp] theorem State.setLatches_alive (s : State) (l : HeaderLatch) : (s.setLatches l).alive = s.alive := rfl
@[simp] theorem State.setLatches_txStatus (s : State) (l : HeaderLatch) : (s.setLatches l).txStatus = s.txStatus := rfl
@[simp] theorem State.setLatches_txs (s : State) (l : HeaderLatch) : (s.setLatches l).txs = s.txs := rfl
@[simp] theorem State.setLatches_txRound (s : State) (l : HeaderLatch) : (s.setLatches l).txRound = s.txRound := rfl
@[simp] theorem State.setLatches_txHdr (s : State) (l : HeaderLatch) : (s.setLatches l).txHdr = s.txHdr := rfl
@[simp] theorem State.setLatches_txDat (s : State) (l : HeaderLatch) : (s.setLatches l).txDat = s.txDat := rfl
@[simp] theorem State.setLatches_cfg (s : State) (l : HeaderLatch) : (s.setLatches l).cfg = s.cfg := rfl
@[simp] theorem State.setLatches_mon (s : State) (l : HeaderLatch) : (s.setLatches l).mon = s.mon := rfl
@[simp] theorem State.setLatches_diag (s : State) (l : HeaderLatch) : (s.setLatches l).diag = s.diag := rfl
@[simp] theorem State.setLatches_reqOut (s : State) (l : HeaderLatch) : (s.setLatches l).reqOut = s.reqOut := rfl
@[simp] theorem State.setLatches_statusOut (s : State) (l : HeaderLatch) : (s.setLatches l).statusOut = s.statusOut := rfl
@[simp] theorem State.setLatches_script (s : State) (l : HeaderLatch) : (s.setLatches l).script = s.script := rfl
@[simp] theorem State.setLatches_freeCount (s : State) (l : HeaderLatch) : (s.setLatches l).freeCount = s.freeCount := rfl

/-! ### `State.drain` -/

@[simp] theorem State.drain_rxs (s : State) : (s.drain).rxs = s.rxs := rfl
@[simp] theorem State.drain_buf (s : State) : (s.drain).buf = s.buf := rfl
@[simp] theorem State.drain_latches (s : State) : (s.drain).latches = s.latches := rfl
@[simp] theorem State.drain_rxq (s : State) : (s.drain).rxq = [] := rfl
@[simp] theorem State.drain_txOut (s : State) : (s.drain).txOut = s.txOut := rfl
@[simp] theorem State.drain_busy (s : State) : (s.drain).busy = s.busy := rfl
@[simp] theorem State.drain_alive (s : State) : (s.drain).alive = s.alive := rfl
@[simp] theorem State.drain_txStatus (s : State) : (s.drain).txStatus = s.txStatus := rfl
@[simp] theorem State.drain_txs (s : State) : (s.drain).txs = s.txs := rfl
@[simp] theorem State.drain_txRound (s : State) : (s.drain).txRound = s.txRound := rfl
@[simp] theorem State.drain_txHdr (s : State) : (s.drain).txHdr = s.txHdr := rfl
@[simp] theorem State.drain_txDat (s : State) : (s.drain).txDat = s.txDat := rfl
@[simp] theorem State.drain_cfg (s : State) : (s.drain).cfg = s.cfg := rfl
@[simp] theorem State.drain_mon (s : State) : (s.drain).mon = s.mon ++ s.rxq.map fun b => (.rx, b) := rfl
@[simp] theorem State.drain_diag (s : State) : (s.drain).diag = s.diag := rfl
@[simp] theorem State.drain_reqOut (s : State) : (s.drain).reqOut = s.reqOut := rfl
@[simp] theorem State.drain_statusOut (s : State) : (s.drain).statusOut = s.statusOut := rfl
@[simp] theorem State.drain_script (s : State) : (s.drain).script = s.script := rfl
@[simp] theorem State.drain_freeCount (s : State) : (s.drain).freeCount = s.freeCount := rfl

/-! ### `State.enterPhase` -/

@[simp] theorem State.enterPhase_rxs (s : State) (p : TxState) : (s.enterPhase p).rxs = s.rxs := rfl
@[simp] theorem State.enterPhase_buf (s : State) (p : TxState) : (s.enterPhase p).buf = s.buf := rfl
@[simp] theorem State.enterPhase_latches (s : State) (p : TxState) : (s.enterPhase p).latches = s.latches := rfl
@[simp] theorem State.enterPhase_rxq (s : State) (p : TxState) : (s.enterPhase p).rxq = s.rxq := rfl
@[simp] theorem State.enterPhase_txOut (s : State) (p : TxState) : (s.enterPhase p).txOut = s.txOut := rfl
@[simp] theorem State.enterPhase_busy (s : State) (p : TxState) : (s.enterPhase p).busy = s.busy := rfl
@[simp] theorem State.enterPhase_alive (s : State) (p : TxState) : (s.enterPhase p).alive = s.alive := rfl
@[simp] theorem State.enterPhase_txStatus (s : State) (p : TxState) : (s.enterPhase p).txStatus = s.txStatus := rfl
@[simp] theorem State.enterPhase_txs (s : State) (p : TxState) : (s.enterPhase p).txs = p := rfl
@[simp] theorem State.enterPhase_txRound (s : State) (p : TxState) : (s.enterPhase p).txRound = 1#3 := rfl
@[simp] theorem State.enterPhase_txHdr (s : State) (p : TxState) : (s.enterPhase p).txHdr = s.txHdr := rfl
@[simp] theorem State.enterPhase_txDat (s : State) (p : TxState) : (s.enterPhase p).txDat = s.txDat := rfl
@[simp] theorem State.enterPhase_cfg (s : State) (p : TxState) : (s.enterPhase p).cfg = s.cfg := rfl
@[simp] theorem State.enterPhase_mon (s : State) (p : TxState) : (s.enterPhase p).mon = s.mon := rfl
@[simp] theorem State.enterPhase_diag (s : State) (p : TxState) : (s.enterPhase p).diag = s.diag := rfl
@[simp] theorem State.enterPhase_reqOut (s : State) (p : TxState) : (s.enterPhase p).reqOut = s.reqOut := rfl
@[simp] theorem State.enterPhase_statusOut (s : State) (p : TxState) : (s.enterPhase p).statusOut = s.statusOut := rfl
@[simp] theorem State.enterPhase_script (s : State) (p : TxState) : (s.enterPhase p).script = s.script := rfl
@[simp] theorem State.enterPhase_freeCount (s : State) (p : TxState) : (s.enterPhase p).freeCount = s.freeCount := rfl

/-! ### `State.loadUnits` -/

@[simp] theorem State.loadUnits_rxs (s : State) (h d : List Byte) : (s.loadUnits h d).rxs = s.rxs := rfl
@[simp] theorem State.loadUnits_buf (s : State) (h d : List Byte) : (s.loadUnits h d).buf = s.buf := rfl
@[simp] theorem State.loadUnits_latches (s : State) (h d : List Byte) : (s.loadUnits h d).latches = s.latches := rfl
@[simp] theorem State.loadUnits_rxq (s : State) (h d : List Byte) : (s.loadUnits h d).rxq = s.rxq := rfl
@[simp] theorem State.loadUnits_txOut (s : State) (h d : List Byte) : (s.loadUnits h d).txOut = s.txOut := rfl
@[simp] theorem State.loadUnits_busy (s : State) (h d : List Byte) : (s.loadUnits h d).busy = s.busy := rfl
@[simp] theorem State.loadUnits_alive (s : State) (h d : List Byte) : (s.loadUnits h d).alive = s.alive := rfl
@[simp] theorem State.loadUnits_txStatus (s : State) (h d : List Byte) : (s.loadUnits h d).txStatus = s.txStatus := rfl
@[simp] theorem State.loadUnits_txs (s : State) (h d : List Byte) : (s.loadUnits h d).txs = s.txs := rfl
@[simp] theorem State.loadUnits_txRound (s : State) (h d : List Byte) : (s.loadUnits h d).txRound = s.txRound := rfl
@[simp] theorem State.loadUnits_txHdr (s : State) (h d : List Byte) : (s.loadUnits h d).txHdr = h := rfl
@[simp] theorem State.loadUnits_txDat (s : State) (h d : List Byte) : (s.loadUnits h d).txDat = d := rfl
@[simp] theorem State.loadUnits_cfg (s : State) (h d : List Byte) : (s.loadUnits h d).cfg = s.cfg := rfl
@[simp] theorem State.loadUnits_mon (s : State) (h d : List Byte) : (s.loadUnits h d).mon = s.mon := rfl
@[simp] theorem State.loadUnits_diag (s : State) (h d : List Byte) : (s.loadUnits h d).diag = s.diag := rfl
@[simp] theorem State.loadUnits_reqOut (s : State) (h d : List Byte) : (s.loadUnits h d).reqOut = s.reqOut := rfl
@[simp] theorem State.loadUnits_statusOut (s : State) (h d : List Byte) : (s.loadUnits h d).statusOut = s.statusOut := rfl
@[simp] theorem State.loadUnits_script (s : State) (h d : List Byte) : (s.loadUnits h d).script = s.script := rfl
@[simp] theorem State.loadUnits_freeCount (s : State) (h d : List Byte) : (s.loadUnits h d).freeCount = s.freeCount := rfl

/-! ### `State.openFrame` -/

@[simp] theorem State.openFrame_rxs (s : State) (m : Byte) (r : RxState) : (s.openFrame m r).rxs = r := rfl
@[simp] theorem State.openFrame_buf (s : State) (m : Byte) (r : RxState) : (s.openFrame m r).buf = [(0, m)] := rfl
@[simp] theorem State.openFrame_latches (s : State) (m : Byte) (r : RxState) : (s.openFrame m r).latches = s.latches := rfl
@[simp] theorem State.openFrame_rxq (s : State) (m : Byte) (r : RxState) : (s.openFrame m r).rxq = s.rxq := rfl
@[simp] theorem State.openFrame_txOut (s : State) (m : Byte) (r : RxState) : (s.openFrame m r).txOut = s.txOut := rfl
@[simp] theorem State.openFrame_busy (s : State) (m : Byte) (r : RxState) : (s.openFrame m r).busy = s.busy := rfl
@[simp] theorem State.openFrame_alive (s : State) (m : Byte) (r : RxState) : (s.openFrame m r).alive = s.alive := rfl
@[simp] theorem State.openFrame_txStatus (s : State) (m : Byte) (r : RxState) : (s.openFrame m r).txStatus = s.txStatus := rfl
@[simp] theorem State.openFrame_txs (s : State) (m : Byte) (r : RxState) : (s.openFrame m r).txs = s.txs := rfl
@[simp] theorem State.openFrame_txRound (s : State) (m : Byte) (r : RxState) : (s.openFrame m r).txRound = s.txRound := rfl
@[simp] theorem State.openFrame_txHdr (s : State) (m : Byte) (r : RxState) : (s.openFrame m r).txHdr = s.txHdr := rfl
@[simp] theorem State.openFrame_txDat (s : State) (m : Byte) (r : RxState) : (s.openFrame m r).txDat = s.txDat := rfl
@[simp] theorem State.openFrame_cfg (s : State) (m : Byte) (r : RxState) : (s.openFrame m r).cfg = s.cfg := rfl
@[simp] theorem State.openFrame_mon (s : State) (m : Byte) (r : RxState) : (s.openFrame m r).mon = s.mon := rfl
@[simp] theorem State.openFrame_diag (s : State) (m : Byte) (r : RxState) : (s.openFrame m r).diag = s.diag := rfl
@[simp] theorem State.openFrame_reqOut (s : State) (m : Byte) (r : RxState) : (s.openFrame m r).reqOut = s.reqOut := rfl
@[simp] theorem State.openFrame_statusOut (s : State) (m : Byte) (r : RxState) : (s.openFrame m r).statusOut = s.statusOut := rfl
@[simp] theorem State.openFrame_script (s : State) (m : Byte) (r : RxState) : (s.openFrame m r).script = s.script := rfl
@[simp] theorem State.openFrame_freeCount (s : State) (m : Byte) (r : RxState) : (s.openFrame m r).freeCount = s.freeCount := rfl

/-! ### `State.closeFrame` -/

@[simp] theorem State.closeFrame_rxs (s : State) (r : RxState) : (s.closeFrame r).rxs = r := rfl
@[simp] theorem State.closeFrame_buf (s : State) (r : RxState) : (s.closeFrame r).buf = [] := rfl
@[simp] theorem State.closeFrame_latches (s : State) (r : RxState) : (s.closeFrame r).latches = s.latches := rfl
@[simp] theorem State.closeFrame_rxq (s : State) (r : RxState) : (s.closeFrame r).rxq = s.rxq := rfl
@[simp] theorem State.closeFrame_txOut (s : State) (r : RxState) : (s.closeFrame r).txOut = s.txOut := rfl
@[simp] theorem State.closeFrame_busy (s : State) (r : RxState) : (s.closeFrame r).busy = s.busy := rfl
@[simp] theorem State.closeFrame_alive (s : State) (r : RxState) : (s.closeFrame r).alive = s.alive := rfl
@[simp] theorem State.closeFrame_txStatus (s : State) (r : RxState) : (s.closeFrame r).txStatus = s.txStatus := rfl
@[simp] theorem State.closeFrame_txs (s : State) (r : RxState) : (s.closeFrame r).txs = s.txs := rfl
@[simp] theorem State.closeFrame_txRound (s : State) (r : RxState) : (s.closeFrame r).txRound = s.txRound := rfl
@[simp] theorem State.closeFrame_txHdr (s : State) (r : RxState) : (s.closeFrame r).txHdr = s.txHdr := rfl
@[simp] theorem State.closeFrame_txDat (s : State) (r : RxState) : (s.closeFrame r).txDat = s.txDat := rfl
@[simp] theorem State.closeFrame_cfg (s : State) (r : RxState) : (s.closeFrame r).cfg = s.cfg := rfl
@[simp] theorem State.closeFrame_mon (s : State) (r : RxState) : (s.closeFrame r).mon = s.mon := rfl
@[simp] theorem State.closeFrame_diag (s : State) (r : RxState) : (s.closeFrame r).diag = s.diag := rfl
@[simp] theorem State.closeFrame_reqOut (s : State) (r : RxState) : (s.closeFrame r).reqOut = s.reqOut := rfl
@[simp] theorem State.closeFrame_statusOut (s : State) (r : RxState) : (s.closeFrame r).statusOut = s.statusOut := rfl
@[simp] theorem State.closeFrame_script (s : State) (r : RxState) : (s.closeFrame r).script = s.script := rfl
@[simp] theorem State.closeFrame_freeCount (s : State) (r : RxState) : (s.closeFrame r).freeCount = s.freeCount := rfl

end Sys2Proof.Machine
end

