-- ==== Sys2Proof/Laws/Ops.lean ====
section
/-! SUPPORT. For each shared operation one lemma that says all it can do, cited instead of unfolding it. -/

namespace Sys2Proof.Machine

/-! ### Checksum arithmetic -/

@[simp] theorem sum8_nil : sum8 [] = 0#8 := rfl

theorem sum8_append (a b : List Byte) : sum8 (a ++ b) = sum8 a + sum8 b := by
  induction a with
  | nil => simp [sum8]
  | cons x a ih => simp [sum8, ih, BitVec.add_assoc]

/-- A frame with its checksum sums to zero (R81). -/
theorem sum8_withCks (body : List Byte) : sum8 (withCks body) = 0#8 := by
  unfold withCks cks
  rw [sum8_append]
  apply BitVec.eq_of_toNat_eq
  simp only [sum8, BitVec.add_zero, BitVec.toNat_add, BitVec.toNat_ofNat]
  have := (sum8 body).isLt
  omega

/-- A header has 7 to 10 bytes (R75). -/
theorem hdrLen_bounds (fmt : Byte) : 7 ≤ hdrLen fmt ∧ hdrLen fmt ≤ 10 := by
  unfold hdrLen
  cases fmtS16 fmt <;> cases fmtI16 fmt <;> simp

/-- A size that a header declares is 1 to 65536 (R78). -/
theorem sizeOfField_range (field : BitVec 16) :
    1 ≤ (sizeOfField field).toNat ∧ (sizeOfField field).toNat ≤ 65536 := by
  have := field.isLt
  simp only [sizeOfField, BitVec.toNat_add, BitVec.truncate_eq_setWidth, BitVec.toNat_setWidth, BitVec.toNat_ofNat]
  omega

/-! ### Consumers -/

/-- A state with a consumer is alive, and its window is either closed or in a sender's wait (R43). -/
theorem canConsume_iff (s : State) :
    s.canConsume = true ↔ s.alive = true ∧ (s.busy = false ∨ s.txs ≠ .txIdle) := by
  unfold State.canConsume State.consumer
  cases s.alive <;> cases s.busy <;> cases s.txs <;> simp

/-- The parser consumes exactly while `ALIVE = 1` and `BUSY = 0` (R43). -/
theorem consumer_parser (s : State) (ha : s.alive = true) (hb : s.busy = false) :
    s.consumer = .parser s.rxs := by
  simp [State.consumer, ha, hb]

/-- In a SEND's header wait the handshake consumes (R43). -/
theorem consumer_hdrWait (s : State) (ha : s.alive = true) (hb : s.busy = true) (ht : s.txs = .txHdrWait) :
    s.consumer = .hdrWait := by
  simp [State.consumer, ha, hb, ht]

/-- In a SEND's data wait the handshake consumes (R43). -/
theorem consumer_dataWait (s : State) (ha : s.alive = true) (hb : s.busy = true) (ht : s.txs = .txDataWait) :
    s.consumer = .dataWait := by
  simp [State.consumer, ha, hb, ht]

/-! ### Enabled events -/

/-- A receive event that goes on was enabled, and goes on after `take()` (R100). -/
theorem rxEvent_next {r : RxState} {b : Byte} {k : State → Result} {s t : State} (h : rxEvent r b k s = .next t) :
    ∃ rest, s.rxq = b :: rest ∧ s.alive = true ∧ s.busy = false ∧ s.rxs = r ∧ k (s.taken b rest) = .next t := by
  unfold rxEvent at h
  split at h
  · cases h
  · next c rest hq =>
    split at h
    · next hc =>
      obtain ⟨ha, hb, hr, rfl⟩ := hc
      exact ⟨rest, hq, ha, hb, hr, h⟩
    · cases h

/-- An enabled receive event does what its rule says after `take()` (R100). -/
theorem rxEvent_enabled {r : RxState} {b : Byte} (k : State → Result) {s : State} {rest : List Byte}
    (ha : s.alive = true) (hb : s.busy = false) (hr : s.rxs = r) (hq : s.rxq = b :: rest) :
    rxEvent r b k s = k (s.taken b rest) := by
  simp [rxEvent, hq, ha, hb, hr]

/-- A handshake event that goes on was enabled, and goes on after `take()` (R176 to R180). -/
theorem txEvent_next {p : TxState} {b : Byte} {k : State → Result} {s t : State} (h : txEvent p b k s = .next t) :
    ∃ rest, s.rxq = b :: rest ∧ s.alive = true ∧ s.txs = p ∧ k (s.taken b rest) = .next t := by
  unfold txEvent at h
  split at h
  · cases h
  · next c rest hq =>
    split at h
    · next hc =>
      obtain ⟨ha, ht, rfl⟩ := hc
      exact ⟨rest, hq, ha, ht, h⟩
    · cases h

/-- An enabled handshake event does what its rule says after `take()` (R176 to R180). -/
theorem txEvent_enabled {p : TxState} {b : Byte} (k : State → Result) {s : State} {rest : List Byte}
    (ha : s.alive = true) (ht : s.txs = p) (hq : s.rxq = b :: rest) : txEvent p b k s = k (s.taken b rest) := by
  simp [txEvent, hq, ha, ht]

/-- A default row that goes on is for a byte that is not excluded (R89). -/
theorem exceptBytes_next {l : List Byte} {b : Byte} {r : Result} {t : State} (h : exceptBytes l b r = .next t) :
    b ∉ l ∧ r = .next t := by
  unfold exceptBytes at h
  split at h
  · cases h
  · next hb => exact ⟨hb, h⟩

theorem exceptBytes_of_notMem {l : List Byte} {b : Byte} (r : Result) (h : b ∉ l) : exceptBytes l b r = r := by
  simp [exceptBytes, h]

/-! ### Inside a step -/

/-- The append goes on exactly below `BUF_CAP` (R22, R57). -/
theorem appendByte_next {b : Byte} {k : State → Result} {s t : State} (h : appendByte b k s = .next t) :
    s.buf.length < bufCap ∧ k (s.setBuf (s.buf.append b)) = .next t := by
  unfold appendByte at h
  split at h
  · next hl => exact ⟨hl, h⟩
  · cases h

theorem appendByte_below {b : Byte} (k : State → Result) {s : State} (h : s.buf.length < bufCap) :
    appendByte b k s = k (s.setBuf (s.buf.append b)) := by
  simp [appendByte, h]

theorem withRead_next {α : Type} {o : Option α} {k : α → Result} {t : State} (h : withRead o k = .next t) :
    ∃ x, o = some x ∧ k x = .next t := by
  cases o with
  | none => cases h
  | some x => exact ⟨x, rfl, h⟩

theorem withLatch_next {s t : State} {k : HeaderLatch → Result} (h : withLatch s k = .next t) :
    ∃ l, s.latches = some l ∧ k l = .next t := by
  unfold withLatch at h
  split at h
  · next l hl => exact ⟨l, hl, h⟩
  · cases h

/-! ### Errors -/

/-- Link failure is one of two updates (R206). -/
theorem die_cases (s : State) :
    (s.txs = .txIdle ∧ s.die = { s with alive := false }) ∨
      (s.txs ≠ .txIdle ∧ s.die = { s with alive := false, txStatus := .fail, txs := .txIdle }) := by
  unfold State.die
  by_cases h : s.txs = .txIdle <;> simp [h]

/-- No error touches the latches, `RXQ`, the sender's frames and round, the parameters, the `REQ` port, or the model's
own fields (R212). -/
theorem raise_keeps (s : State) (e : LinkError) :
    (s.raise e).latches = s.latches ∧ (s.raise e).rxq = s.rxq ∧ (s.raise e).txHdr = s.txHdr ∧
      (s.raise e).txDat = s.txDat ∧ (s.raise e).txRound = s.txRound ∧ (s.raise e).cfg = s.cfg ∧
      (s.raise e).reqOut = s.reqOut ∧ (s.raise e).busy = s.busy ∧ (s.raise e).script = s.script ∧
      (s.raise e).freeCount = s.freeCount := by
  cases e with
  | linkFailure => obtain ⟨-, h⟩ | ⟨-, h⟩ := die_cases s <;> simp [State.raise, h]
  | _ => simp [State.raise]

/-- The report of a non-ACK byte adds one entry to `DIAG` and does nothing else (R177, R180). -/
theorem noteAnswer_eq (s : State) (b : Byte) : ∃ r, s.noteAnswer b = s.report r := by
  unfold State.noteAnswer
  split
  · exact ⟨_, rfl⟩
  · exact ⟨_, rfl⟩

/-- `retry_or_fail` retransmits below the fourth round and fails in it (R181, R182). -/
theorem retryOrFail_cases (s : State) (unit : List Byte) :
    (s.txRound.toNat < 4 ∧ s.retryOrFail unit =
        { s with txRound := s.txRound + 1#3, txOut := s.txOut ++ unit, mon := s.mon ++ unit.map fun b => (.tx, b) }) ∨
      (4 ≤ s.txRound.toNat ∧ s.retryOrFail unit =
        { s with txStatus := .fail, txs := .txIdle, statusOut := s.statusOut ++ [.fail],
                 diag := s.diag ++ [.error (.sendFailure s.txs)] }) := by
  unfold State.retryOrFail
  by_cases h : s.txRound.toNat < 4
  · left; refine ⟨h, ?_⟩; rw [if_pos (by simpa [BitVec.lt_def] using h)]; rfl
  · right; refine ⟨by omega, ?_⟩; rw [if_neg (by simpa [BitVec.lt_def] using h)]; rfl

/-- Dispatch opens the window for a registered destination and reports otherwise (R150, R151). -/
theorem dispatch_cases (s : State) (l : HeaderLatch) (p : List Byte) :
    (l.did ∈ s.cfg.reg ∧ s.dispatch l p = s.openWindow ⟨l.did, l.sid, l.fnc, l.size, p⟩) ∨
      (l.did ∉ s.cfg.reg ∧ s.dispatch l p = s.report (.error (.unregistered l.did))) := by
  by_cases h : l.did ∈ s.cfg.reg
  · left; exact ⟨h, by simp [State.dispatch, State.registered, h]⟩
  · right; exact ⟨h, by simp [State.dispatch, State.registered, h, State.raise]⟩

/-! ### Sequences of bytes -/

/-- One byte of a sequence: it is consumed and the sequence goes on, or nobody consumes and the rest waits (R43). -/
theorem consumeSeq_cons (b : Byte) (bs : List Byte) (s : State) :
    (s.canConsume = false ∧ consumeSeq (b :: bs) s = .next s) ∨
      (s.canConsume = true ∧ ∀ t, consumeSeq (b :: bs) s = .next t ↔
        ∃ u, consumeByte b s = .next u ∧ consumeSeq bs u = .next t) := by
  cases h : s.canConsume with
  | false => left; simp [consumeSeq, h]
  | true =>
    right
    refine ⟨rfl, fun t => ?_⟩
    simp only [consumeSeq, h, if_true]
    cases hb : consumeByte b s <;> simp

/-- One byte of a sequence while somebody consumes. -/
theorem consumeSeq_step {b : Byte} {s u : State} (bs : List Byte) (hc : s.canConsume = true)
    (h : consumeByte b s = .next u) : consumeSeq (b :: bs) s = consumeSeq bs u := by
  simp [consumeSeq, hc, h]

/-- A frame runs where its bytes stand at the head of `RXQ` and somebody consumes (R90, R43). -/
theorem consumeFrame_next {bs : List Byte} {s t : State} (h : consumeFrame bs s = .next t) :
    s.canConsume = true ∧ bs <+: s.rxq ∧ consumeSeq bs s = .next t := by
  unfold consumeFrame at h
  split at h
  · next hc => exact ⟨hc.1, hc.2, h⟩
  · cases h

end Sys2Proof.Machine
end

