-- ==== Sys2Proof/Laws/Events.lean ====
section
/-! SUPPORT. For each event, what it can do: if it answers a next state, then that one (files 40 to 43, 60, 70). Later
proofs cite these instead of unfolding a meaning. -/

namespace Sys2Proof.Machine

/-- The parser takes `b` off `RXQ` in the parse state `r` (R100). -/
def TookByParser (s : State) (r : RxState) (b : Byte) (rest : List Byte) : Prop :=
  s.rxq = b :: rest ∧ s.alive = true ∧ s.busy = false ∧ s.rxs = r

/-- The handshake takes `b` off `RXQ` in the phase `p` (R176 to R180). -/
def TookBySender (s : State) (p : TxState) (b : Byte) (rest : List Byte) : Prop :=
  s.rxq = b :: rest ∧ s.alive = true ∧ s.txs = p

theorem execRxIdleSel_next {s t : State} (h : execRxIdleSel s = .next t) :
    ∃ rest, TookByParser s .idle SEL rest ∧ t = (s.taken SEL rest).openFrame SEL .select := by
  obtain ⟨rest, hq, ha, hb, hr, hk⟩ := rxEvent_next h
  cases hk
  exact ⟨rest, ⟨hq, ha, hb, hr⟩, rfl⟩

theorem execRxIdleSoh_next {s t : State} (h : execRxIdleSoh s = .next t) :
    ∃ rest, TookByParser s .idle SOH rest ∧ t = (s.taken SOH rest).openFrame SOH .header := by
  obtain ⟨rest, hq, ha, hb, hr, hk⟩ := rxEvent_next h
  cases hk
  exact ⟨rest, ⟨hq, ha, hb, hr⟩, rfl⟩

theorem execRxIdleOther_next {b : Byte} {s t : State} (h : execRxIdleOther b s = .next t) :
    ∃ rest, TookByParser s .idle b rest ∧ t = (s.taken b rest).report (.error (.unassociated b)) := by
  obtain ⟨rest, hq, ha, hb, hr, hk⟩ := rxEvent_next (exceptBytes_next h).2
  cases hk
  exact ⟨rest, ⟨hq, ha, hb, hr⟩, rfl⟩

/-- A byte of a Select frame is stored, or is the fourth and ends the frame with or without the ACK (R104). -/
theorem execRxSelectByte_next {b : Byte} {s t : State} (h : execRxSelectByte b s = .next t) :
    ∃ rest, TookByParser s .select b rest ∧ s.buf.length < bufCap ∧
      ((s.buf.length ≠ 3 ∧ t = (s.taken b rest).setBuf (s.buf.append b)) ∨
        (s.buf.length = 3 ∧ ∃ slave, (s.buf.append b).read 1 = some slave ∧
          ((zext16 slave ∈ s.cfg.reg ∧
              t = (((s.taken b rest).setBuf (s.buf.append b)).emit ACK).closeFrame .idle) ∨
            (zext16 slave ∉ s.cfg.reg ∧ t = ((s.taken b rest).setBuf (s.buf.append b)).closeFrame .idle)))) := by
  obtain ⟨rest, hq, ha, hb, hr, hk⟩ := rxEvent_next h
  obtain ⟨hl, hk⟩ := appendByte_next hk
  refine ⟨rest, ⟨hq, ha, hb, hr⟩, hl, ?_⟩
  by_cases h3 : s.buf.length = 3
  · right
    refine ⟨h3, ?_⟩
    rw [if_pos (by simp [h3])] at hk
    obtain ⟨slave, hs, hk⟩ := withRead_next hk
    refine ⟨slave, hs, ?_⟩
    by_cases hm : zext16 slave ∈ s.cfg.reg
    · left
      rw [if_pos (by simp [State.registered, hm])] at hk
      cases hk
      exact ⟨hm, rfl⟩
    · right
      rw [if_neg (by simp [State.registered, hm])] at hk
      cases hk
      exact ⟨hm, rfl⟩
  · left
    rw [if_neg (by simpa using h3)] at hk
    cases hk
    exact ⟨h3, rfl⟩

/-- A byte of a header frame is stored, or completes it and the header is accepted or NAKed (R120 to R122). -/
theorem execRxHeaderByte_next {b : Byte} {s t : State} (h : execRxHeaderByte b s = .next t) :
    ∃ rest, TookByParser s .header b rest ∧ s.buf.length < bufCap ∧
      ((t = (s.taken b rest).setBuf (s.buf.append b) ∧ (s.buf.length = 0 ∨
          ∃ fmt, (s.buf.append b).read 1 = some fmt ∧ s.buf.length + 1 ≠ hdrLen fmt)) ∨
        (∃ fmt, (s.buf.append b).read 1 = some fmt ∧ s.buf.length + 1 = hdrLen fmt ∧
          ((sum8 (s.buf.bytes ++ [b]) = 0#8 ∧ ∃ l, headerLatch (s.buf.append b) = some l ∧
              t = ((((s.taken b rest).setBuf (s.buf.append b)).setLatches l).emit ACK).closeFrame .headerComplete) ∨
            (sum8 (s.buf.bytes ++ [b]) ≠ 0#8 ∧
              t = ((s.taken b rest).setBuf (s.buf.append b)).raise
                (.headerChecksum (sum8 (s.buf.bytes ++ [b]))))))) := by
  obtain ⟨rest, hq, ha, hb, hr, hk⟩ := rxEvent_next h
  obtain ⟨hl, hk⟩ := appendByte_next hk
  refine ⟨rest, ⟨hq, ha, hb, hr⟩, hl, ?_⟩
  unfold headerCheck at hk
  split at hk
  · next hlt =>
    cases hk
    exact .inl ⟨rfl, .inl (by simpa using hlt)⟩
  · obtain ⟨fmt, hf, hk⟩ := withRead_next hk
    split at hk
    · next hlen =>
      right
      refine ⟨fmt, hf, by simpa using hlen, ?_⟩
      split at hk
      · next hz =>
        obtain ⟨l, hla, hk⟩ := withRead_next hk
        cases hk
        exact .inl ⟨by simpa using hz, l, hla, rfl⟩
      · next hz =>
        cases hk
        exact .inr ⟨by simpa using hz, by simp⟩
    · next hlen =>
      cases hk
      exact .inl ⟨rfl, .inr ⟨fmt, hf, by simpa using hlen⟩⟩

theorem execRxHcStx_next {s t : State} (h : execRxHcStx s = .next t) :
    ∃ rest, TookByParser s .headerComplete STX rest ∧ t = (s.taken STX rest).openFrame STX .data := by
  obtain ⟨rest, hq, ha, hb, hr, hk⟩ := rxEvent_next h
  cases hk
  exact ⟨rest, ⟨hq, ha, hb, hr⟩, rfl⟩

theorem execRxHcOther_next {b : Byte} {s t : State} (h : execRxHcOther b s = .next t) :
    ∃ rest, TookByParser s .headerComplete b rest ∧
      t = ((s.taken b rest).report (.error (.outOfBand b))).setRxs .idle := by
  obtain ⟨rest, hq, ha, hb, hr, hk⟩ := rxEvent_next (exceptBytes_next h).2
  cases hk
  exact ⟨rest, ⟨hq, ha, hb, hr⟩, rfl⟩

/-- A byte of a data frame is stored, or completes it and the frame is accepted or NAKed (R142 to R144). -/
theorem execRxDataByte_next {b : Byte} {s t : State} (h : execRxDataByte b s = .next t) :
    ∃ rest l, TookByParser s .data b rest ∧ s.buf.length < bufCap ∧ s.latches = some l ∧
      ((s.buf.length ≠ l.size.toNat + 2 ∧ t = (s.taken b rest).setBuf (s.buf.append b)) ∨
        (s.buf.length = l.size.toNat + 2 ∧
          ((sum8 (s.buf.bytes ++ [b]) = 0#8 ∧
              t = (((s.taken b rest).setBuf (s.buf.append b)).emit ACK).setRxs .awaitingEnd) ∨
            (sum8 (s.buf.bytes ++ [b]) ≠ 0#8 ∧
              t = ((s.taken b rest).setBuf (s.buf.append b)).raise
                (.dataChecksum (sum8 (s.buf.bytes ++ [b]))))))) := by
  obtain ⟨rest, hq, ha, hb, hr, hk⟩ := rxEvent_next h
  obtain ⟨hl, hk⟩ := appendByte_next hk
  obtain ⟨l, hla, hk⟩ := withLatch_next hk
  refine ⟨rest, l, ⟨hq, ha, hb, hr⟩, hl, by simpa using hla, ?_⟩
  split at hk
  · next hlen =>
    right
    refine ⟨by simpa using hlen, ?_⟩
    split at hk
    · next hz =>
      cases hk
      exact .inl ⟨by simpa using hz, rfl⟩
    · next hz =>
      cases hk
      exact .inr ⟨by simpa using hz, by simp⟩
  · next hlen =>
    cases hk
    exact .inl ⟨by simpa using hlen, rfl⟩

theorem execRxAeEnq_next {s t : State} (h : execRxAeEnq s = .next t) :
    ∃ rest, TookByParser s .awaitingEnd ENQ rest ∧ t = (s.taken ENQ rest).emit ACK := by
  obtain ⟨rest, hq, ha, hb, hr, hk⟩ := rxEvent_next h
  cases hk
  exact ⟨rest, ⟨hq, ha, hb, hr⟩, rfl⟩

/-- The EOT ends the frame and dispatches the latched request or reports it (R146). -/
theorem execRxAeEot_next {s t : State} (h : execRxAeEot s = .next t) :
    ∃ rest l payload, TookByParser s .awaitingEnd EOT rest ∧ s.latches = some l ∧
      s.buf.readSeq 1 l.size.toNat = some payload ∧
      t = ((s.taken EOT rest).closeFrame .headerComplete).dispatch l payload := by
  obtain ⟨rest, hq, ha, hb, hr, hk⟩ := rxEvent_next h
  obtain ⟨l, hla, hk⟩ := withLatch_next hk
  obtain ⟨payload, hp, hk⟩ := withRead_next hk
  cases hk
  exact ⟨rest, l, payload, ⟨hq, ha, hb, hr⟩, by simpa using hla, by simpa using hp, rfl⟩

theorem execRxAeOther_next {b : Byte} {s t : State} (h : execRxAeOther b s = .next t) :
    ∃ rest, TookByParser s .awaitingEnd b rest ∧
      t = (s.taken b rest).report (.error (.unexpectedInAwaitingEnd b)) := by
  obtain ⟨rest, hq, ha, hb, hr, hk⟩ := rxEvent_next (exceptBytes_next h).2
  cases hk
  exact ⟨rest, ⟨hq, ha, hb, hr⟩, rfl⟩

/-- The device's commands need the open window (R152, R171). -/
theorem windowOpen_iff (s : State) :
    s.windowOpen = true ↔ s.alive = true ∧ s.busy = true ∧ s.txs = .txIdle := by
  simp [State.windowOpen, and_assoc]

theorem execCmdDone_next {s t : State} (h : execCmdDone s = .next t) :
    s.alive = true ∧ s.busy = true ∧ s.txs = .txIdle ∧ t = s.closeWindow := by
  unfold execCmdDone at h
  split at h
  · next hw =>
    cases h
    obtain ⟨ha, hb, ht⟩ := (windowOpen_iff s).1 hw
    exact ⟨ha, hb, ht, rfl⟩
  · cases h

theorem execCmdSend_next {dest src : DevId} {fnc : Byte} {size : Size} {bytes : List Byte} {s t : State}
    (h : execCmdSend dest src fnc size bytes s = .next t) :
    s.alive = true ∧ s.busy = true ∧ s.txs = .txIdle ∧ 1 ≤ size.toNat ∧ size.toNat ≤ 65536 ∧
      bytes.length = size.toNat ∧
      t = ((s.drain.loadUnits (sendHeader s.cfg dest src fnc size) (sendData bytes)).emitSeq
        (sendHeader s.cfg dest src fnc size)).enterPhase .txHdrWait := by
  unfold execCmdSend at h
  split at h
  · next hw =>
    split at h
    · next ho =>
      cases h
      obtain ⟨ha, hb, ht⟩ := (windowOpen_iff s).1 hw
      simp only [sendOperandsOk, Bool.and_eq_true, decide_eq_true_eq] at ho
      exact ⟨ha, hb, ht, ho.1.1, ho.1.2, ho.2, rfl⟩
    · cases h
  · cases h

theorem execTxHdrAck_next {s t : State} (h : execTxHdrAck s = .next t) :
    ∃ rest, TookBySender s .txHdrWait ACK rest ∧
      t = ((s.taken ACK rest).emitSeq s.txDat).enterPhase .txDataWait := by
  obtain ⟨rest, hq, ha, ht, hk⟩ := txEvent_next h
  cases hk
  exact ⟨rest, ⟨hq, ha, ht⟩, rfl⟩

theorem execTxHdrOther_next {b : Byte} {s t : State} (h : execTxHdrOther b s = .next t) :
    b ≠ ACK ∧ ∃ rest, TookBySender s .txHdrWait b rest ∧
      t = ((s.taken b rest).noteAnswer b).retryOrFail s.txHdr := by
  obtain ⟨hb, h⟩ := exceptBytes_next h
  obtain ⟨rest, hq, ha, ht, hk⟩ := txEvent_next h
  cases hk
  exact ⟨by simpa using hb, rest, ⟨hq, ha, ht⟩, rfl⟩

theorem execTxTimeout_next {s t : State} (h : execTxTimeout s = .next t) :
    s.alive = true ∧ s.rxq = [] ∧
      ((s.txs = .txHdrWait ∧ t = (s.report .noAnswerTimeout).retryOrFail s.txHdr) ∨
        (s.txs = .txDataWait ∧ t = (s.report .noAnswerTimeout).retryOrFail s.txDat)) := by
  unfold execTxTimeout at h
  split at h
  · next hc =>
    refine ⟨hc.1, hc.2, ?_⟩
    cases ht : s.txs with
    | txIdle => simp [ht] at h
    | txHdrWait =>
      simp only [ht] at h
      cases h
      exact .inl ⟨rfl, rfl⟩
    | txDataWait =>
      simp only [ht] at h
      cases h
      exact .inr ⟨rfl, rfl⟩
  · cases h

theorem execTxDataAck_next {s t : State} (h : execTxDataAck s = .next t) :
    ∃ rest, TookBySender s .txDataWait ACK rest ∧ t = ((s.taken ACK rest).emit EOT).finishSend .ok := by
  obtain ⟨rest, hq, ha, ht, hk⟩ := txEvent_next h
  cases hk
  exact ⟨rest, ⟨hq, ha, ht⟩, rfl⟩

theorem execTxDataOther_next {b : Byte} {s t : State} (h : execTxDataOther b s = .next t) :
    b ≠ ACK ∧ ∃ rest, TookBySender s .txDataWait b rest ∧
      t = ((s.taken b rest).noteAnswer b).retryOrFail s.txDat := by
  obtain ⟨hb, h⟩ := exceptBytes_next h
  obtain ⟨rest, hq, ha, ht, hk⟩ := txEvent_next h
  cases hk
  exact ⟨by simpa using hb, rest, ⟨hq, ha, ht⟩, rfl⟩

theorem execEnvLinkFail_next {s t : State} (h : execEnvLinkFail s = .next t) : s.alive = true ∧ t = s.die := by
  unfold execEnvLinkFail at h
  split at h
  · next ha =>
    cases h
    exact ⟨ha, rfl⟩
  · cases h

/-- A step is one turn of the script, or the framer's own (log 1). -/
theorem step_next {s t : State} (h : step s = .next t) :
    (∃ b sc, s.script = .arrive b :: sc ∧ s.alive = true ∧ t = { s with script := sc, rxq := s.rxq ++ [b] }) ∨
      (∃ c sc, s.script = .command c :: sc ∧ exec (decodeCommand c) { s with script := sc } = .next t) ∨
      (∃ g sc i, s.script = .receive g :: sc ∧ s.fetch g = .instr i ∧ exec i { s with script := sc } = .next t) ∨
      (∃ i, s.script = [] ∧ s.fetch .event = .instr i ∧ exec i s = .next t) := by
  unfold step at h
  split at h
  · next hs =>
    right; right; right
    simp only [State.turn] at h
    split at h
    · next i hf => exact ⟨i, hs, hf, h⟩
    · cases h
  · next u sc hs =>
    cases u with
    | arrive b =>
      left
      simp only [State.turn] at h
      split at h
      · next ha =>
        cases h
        exact ⟨b, sc, hs, ha, rfl⟩
      · cases h
    | command c => exact .inr (.inl ⟨c, sc, hs, h⟩)
    | receive g =>
      right; right; left
      simp only [State.turn] at h
      split at h
      · next i hf => exact ⟨g, sc, i, hs, hf, h⟩
      · cases h

end Sys2Proof.Machine
end

