-- ==== Sys2Proof/Laws/Bytes.lean ====
section
/-! SUPPORT. A control byte or a frame does what events do: what holds across every event holds across every instruction. -/

namespace Sys2Proof.Machine

/-- A consumed byte runs one of the events of R89, the one the decoder names, or nobody consumes it (R43). -/
theorem consumeByte_cases (b : Byte) (s : State) :
    (∃ i, grainOf i = .event ∧ decodeEvent s.consumer b = .instr i ∧ i ≠ .envReset ∧ i ≠ .envLinkFail ∧
        consumeByte b s = exec i s) ∨
      (s.canConsume = false ∧ consumeByte b s = .refused .notEnabled) := by
  unfold consumeByte decodeEvent State.canConsume
  cases s.consumer with
  | parser r =>
    left
    cases r <;> simp only []
    · by_cases h : b = 0x31#8
      · subst h; exact ⟨.rxIdleSel, rfl, rfl, by simp, by simp, rfl⟩
      · by_cases h' : b = 0x01#8
        · subst h'; exact ⟨.rxIdleSoh, rfl, rfl, by simp, by simp, rfl⟩
        · simp only [h, h', if_false]; exact ⟨.rxIdleOther b, rfl, rfl, by simp, by simp, rfl⟩
    · exact ⟨.rxSelectByte b, rfl, rfl, by simp, by simp, rfl⟩
    · exact ⟨.rxHeaderByte b, rfl, rfl, by simp, by simp, rfl⟩
    · by_cases h : b = 0x02#8
      · subst h; exact ⟨.rxHcStx, rfl, rfl, by simp, by simp, rfl⟩
      · simp only [h, if_false]; exact ⟨.rxHcOther b, rfl, rfl, by simp, by simp, rfl⟩
    · exact ⟨.rxDataByte b, rfl, rfl, by simp, by simp, rfl⟩
    · by_cases h : b = 0x05#8
      · subst h; exact ⟨.rxAeEnq, rfl, rfl, by simp, by simp, rfl⟩
      · by_cases h' : b = 0x04#8
        · subst h'; exact ⟨.rxAeEot, rfl, rfl, by simp, by simp, rfl⟩
        · simp only [h, h', if_false]; exact ⟨.rxAeOther b, rfl, rfl, by simp, by simp, rfl⟩
  | hdrWait =>
    left
    by_cases h : b = 0x06#8
    · subst h; exact ⟨.txHdrAck, rfl, rfl, by simp, by simp, rfl⟩
    · simp only [h, if_false]; exact ⟨.txHdrOther b, rfl, rfl, by simp, by simp, rfl⟩
  | dataWait =>
    left
    by_cases h : b = 0x06#8
    · subst h; exact ⟨.txDataAck, rfl, rfl, by simp, by simp, rfl⟩
    · simp only [h, if_false]; exact ⟨.txDataOther b, rfl, rfl, by simp, by simp, rfl⟩
  | window => exact .inr ⟨rfl, rfl⟩
  | dead => exact .inr ⟨rfl, rfl⟩

/-- A relation that every event respects, reflexive and transitive, is respected by every instruction. -/
theorem exec_respects {R : State → State → Prop} (hrefl : ∀ s, R s s) (htrans : ∀ a b c, R a b → R b c → R a c)
    (hev : ∀ i s t, grainOf i = .event → exec i s = .next t → R s t) : ∀ i s t, exec i s = .next t → R s t := by
  have hbyte : ∀ b s t, consumeByte b s = .next t → R s t := by
    intro b s t h
    obtain ⟨i, hi, -, -, -, e⟩ | ⟨-, e⟩ := consumeByte_cases b s
    · exact hev i s t hi (e ▸ h)
    · rw [e] at h; cases h
  have hseq : ∀ bs s t, consumeSeq bs s = .next t → R s t := by
    intro bs
    induction bs with
    | nil => intro s t h; cases h; exact hrefl _
    | cons b bs ih =>
      intro s t h
      obtain ⟨-, e⟩ | ⟨-, e⟩ := consumeSeq_cons b bs s
      · rw [e] at h; cases h; exact hrefl _
      · obtain ⟨u, h1, h2⟩ := (e t).1 h
        exact htrans _ _ _ (hbyte _ _ _ h1) (ih _ _ h2)
  have hframe : ∀ bs s t, consumeFrame bs s = .next t → R s t := fun bs s t h => hseq _ _ _ (consumeFrame_next h).2.2
  intro i s t h
  by_cases hi : grainOf i = .event
  · exact hev i s t hi h
  · cases i <;> simp [grainOf] at hi <;> first | exact hbyte _ _ _ h | exact hframe _ _ _ h

end Sys2Proof.Machine
end

