-- ==== Sys2Proof/Laws/PerInstr.lean ====
section
/-! SUPPORT. A statement about every instruction's encoding, with one lemma per constructor. -/

namespace Sys2Proof.Laws.EncodeLength

/-- The length the table gives a row in bytes (R70, R88): 1 for a control byte or a byte event, 4 for SELECT, 7 to 10
for a header, payload + 3 for DATA; a command has no bytes. -/
def tableLength : Instr → Option Nat
  | .select _ _ _ => some 4
  | .headerI8S8 _ _ _ _ _ _ _ => some 7
  | .headerI8S16 _ _ _ _ _ _ _ => some 8
  | .headerI16S8 _ _ _ _ _ _ _ => some 9
  | .headerI16S16 _ _ _ _ _ _ _ => some 10
  | .data p _ _ => some (p.length + 3)
  | .cmdDone => none
  | .cmdSend _ _ _ _ _ => none
  | .txTimeout => none
  | .envLinkFail => none
  | .envReset => none
  | _ => some 1

/-- The length of what the encoder writes; none for a command. -/
def encodedLength (i : Instr) : Option Nat :=
  match encode i with
  | .link bs => some bs.length
  | .command _ => none

/-- The encoder writes as many bytes as the table gives the row. -/
def Statement (i : Instr) : Prop := encodedLength i = tableLength i

theorem sel : Statement .sel := rfl
theorem soh : Statement .soh := rfl
theorem stx : Statement .stx := rfl
theorem etx : Statement .etx := rfl
theorem eot : Statement .eot := rfl
theorem enq : Statement .enq := rfl
theorem ack : Statement .ack := rfl
theorem wait : Statement .wait := rfl
theorem nak : Statement .nak := rfl
theorem select : ∀ a b c, Statement (.select a b c) := fun _ _ _ => rfl
theorem headerI8S8 : ∀ a b c d e f g, Statement (.headerI8S8 a b c d e f g) := fun _ _ _ _ _ _ _ => rfl
theorem headerI8S16 : ∀ a b c d e f g, Statement (.headerI8S16 a b c d e f g) := fun _ _ _ _ _ _ _ => rfl
theorem headerI16S8 : ∀ a b c d e f g, Statement (.headerI16S8 a b c d e f g) := fun _ _ _ _ _ _ _ => rfl
theorem headerI16S16 : ∀ a b c d e f g, Statement (.headerI16S16 a b c d e f g) := fun _ _ _ _ _ _ _ => rfl
theorem data : ∀ a b c, Statement (.data a b c) := by
  intro p e c
  have h : (0x02#8 :: (p ++ [e, c])).length = p.length + 3 := by
    rw [List.length_cons, List.length_append]; rfl
  exact congrArg some h
theorem rxIdleSel : Statement .rxIdleSel := rfl
theorem rxIdleSoh : Statement .rxIdleSoh := rfl
theorem rxIdleOther : ∀ a, Statement (.rxIdleOther a) := fun _ => rfl
theorem rxSelectByte : ∀ a, Statement (.rxSelectByte a) := fun _ => rfl
theorem rxHeaderByte : ∀ a, Statement (.rxHeaderByte a) := fun _ => rfl
theorem rxHcStx : Statement .rxHcStx := rfl
theorem rxHcOther : ∀ a, Statement (.rxHcOther a) := fun _ => rfl
theorem rxDataByte : ∀ a, Statement (.rxDataByte a) := fun _ => rfl
theorem rxAeEnq : Statement .rxAeEnq := rfl
theorem rxAeEot : Statement .rxAeEot := rfl
theorem rxAeOther : ∀ a, Statement (.rxAeOther a) := fun _ => rfl
theorem cmdDone : Statement .cmdDone := rfl
theorem cmdSend : ∀ a b c d e, Statement (.cmdSend a b c d e) := fun _ _ _ _ _ => rfl
theorem txHdrAck : Statement .txHdrAck := rfl
theorem txHdrOther : ∀ a, Statement (.txHdrOther a) := fun _ => rfl
theorem txTimeout : Statement .txTimeout := rfl
theorem txDataAck : Statement .txDataAck := rfl
theorem txDataOther : ∀ a, Statement (.txDataOther a) := fun _ => rfl
theorem envLinkFail : Statement .envLinkFail := rfl
theorem envReset : Statement .envReset := rfl

end Sys2Proof.Laws.EncodeLength
end

