-- ==== Sys2Proof/Laws/Turns.lean ====
section
/-! SUPPORT. Turns: no event rule reads the script of turns (log 1), a consumed byte was the head of `RXQ`, and what one
event turn and one more step of a run do. -/

namespace Sys2Proof.Machine

/-- The state with another script of turns. -/
def State.withScript (s : State) (sc : List Turn) : State := { s with script := sc }

/-- An answer, its next state with another script of turns. -/
def onScript (sc : List Turn) (r : Result) : Result := mapNext (fun t => t.withScript sc) r

section
variable (s : State) (sc : List Turn)

@[simp] theorem withScript_cfg : (s.withScript sc).cfg = s.cfg := rfl
@[simp] theorem withScript_alive : (s.withScript sc).alive = s.alive := rfl
@[simp] theorem withScript_busy : (s.withScript sc).busy = s.busy := rfl
@[simp] theorem withScript_rxs : (s.withScript sc).rxs = s.rxs := rfl
@[simp] theorem withScript_txs : (s.withScript sc).txs = s.txs := rfl
@[simp] theorem withScript_rxq : (s.withScript sc).rxq = s.rxq := rfl
@[simp] theorem withScript_buf : (s.withScript sc).buf = s.buf := rfl
@[simp] theorem withScript_latches : (s.withScript sc).latches = s.latches := rfl
@[simp] theorem withScript_txRound : (s.withScript sc).txRound = s.txRound := rfl
@[simp] theorem withScript_txHdr : (s.withScript sc).txHdr = s.txHdr := rfl
@[simp] theorem withScript_txDat : (s.withScript sc).txDat = s.txDat := rfl
@[simp] theorem withScript_script : (s.withScript sc).script = sc := rfl
@[simp] theorem withScript_consumer : (s.withScript sc).consumer = s.consumer := rfl
@[simp] theorem withScript_canConsume : (s.withScript sc).canConsume = s.canConsume := rfl
@[simp] theorem withScript_declaredSize : (s.withScript sc).declaredSize = s.declaredSize := rfl
@[simp] theorem withScript_registered (id : DevId) : (s.withScript sc).registered id = s.registered id := rfl
@[simp] theorem onScript_next : onScript sc (.next s) = .next (s.withScript sc) := rfl
@[simp] theorem onScript_fault (f : Fault) : onScript sc (.fault f) = .fault f := rfl
@[simp] theorem onScript_refused (r : Refusal) : onScript sc (.refused r) = .refused r := rfl

end

/-! ### The shared operations leave the script alone -/

variable (sc : List Turn)

theorem rxEvent_withScript {r : RxState} {b : Byte} {k : State → Result}
    (hk : ∀ s, k (s.withScript sc) = onScript sc (k s)) (s : State) :
    rxEvent r b k (s.withScript sc) = onScript sc (rxEvent r b k s) := by
  unfold rxEvent
  rw [withScript_rxq]
  cases s.rxq with
  | nil => rfl
  | cons c rest =>
    change (if s.alive = true ∧ s.busy = false ∧ s.rxs = r ∧ c = b then _ else _) =
      onScript sc (if s.alive = true ∧ s.busy = false ∧ s.rxs = r ∧ c = b then _ else _)
    split
    · exact hk (s.taken b rest)
    · rfl

theorem txEvent_withScript {p : TxState} {b : Byte} {k : State → Result}
    (hk : ∀ s, k (s.withScript sc) = onScript sc (k s)) (s : State) :
    txEvent p b k (s.withScript sc) = onScript sc (txEvent p b k s) := by
  unfold txEvent
  rw [withScript_rxq]
  cases s.rxq with
  | nil => rfl
  | cons c rest =>
    change (if s.alive = true ∧ s.txs = p ∧ c = b then _ else _) =
      onScript sc (if s.alive = true ∧ s.txs = p ∧ c = b then _ else _)
    split
    · exact hk (s.taken b rest)
    · rfl

theorem exceptBytes_onScript {l : List Byte} {b : Byte} {r r' : Result} (h : r' = onScript sc r) :
    exceptBytes l b r' = onScript sc (exceptBytes l b r) := by
  unfold exceptBytes
  split
  · rfl
  · exact h

theorem appendByte_withScript {b : Byte} {k : State → Result} (hk : ∀ s, k (s.withScript sc) = onScript sc (k s))
    (s : State) : appendByte b k (s.withScript sc) = onScript sc (appendByte b k s) := by
  change (if s.buf.length < bufCap then _ else _) = onScript sc (if s.buf.length < bufCap then _ else _)
  split
  · exact hk (s.setBuf (s.buf.append b))
  · rfl

theorem withRead_onScript {α : Type} {o : Option α} {k k' : α → Result} (hk : ∀ x, k' x = onScript sc (k x)) :
    withRead o k' = onScript sc (withRead o k) := by
  cases o with
  | none => rfl
  | some x => exact hk x

theorem withLatch_withScript {s : State} {k k' : HeaderLatch → Result} (hk : ∀ l, k' l = onScript sc (k l)) :
    withLatch (s.withScript sc) k' = onScript sc (withLatch s k) := by
  simp only [withLatch, withScript_latches]
  split
  · exact hk _
  · rfl

theorem noteAnswer_withScript (s : State) (b : Byte) :
    (s.withScript sc).noteAnswer b = (s.noteAnswer b).withScript sc := by
  unfold State.noteAnswer; split <;> rfl

theorem retryOrFail_withScript (s : State) (unit : List Byte) :
    (s.withScript sc).retryOrFail unit = (s.retryOrFail unit).withScript sc := by
  change (if s.txRound < txRounds then _ else _) = _
  unfold State.retryOrFail; split <;> rfl

theorem dispatch_withScript (s : State) (l : HeaderLatch) (p : List Byte) :
    (s.withScript sc).dispatch l p = (s.dispatch l p).withScript sc := by
  change (if s.registered l.did then _ else _) = _
  unfold State.dispatch; split <;> rfl

theorem finishSelect_withScript (s : State) : finishSelect (s.withScript sc) = onScript sc (finishSelect s) := by
  refine withRead_onScript sc (o := s.buf.read 1) fun x => ?_
  rw [withScript_registered]
  cases s.registered (zext16 x) <;> rfl

theorem headerCheck_withScript (s : State) : headerCheck (s.withScript sc) = onScript sc (headerCheck s) := by
  change (if s.buf.length < 2 then _ else _) = onScript sc (if s.buf.length < 2 then _ else _)
  split
  · rfl
  · refine withRead_onScript sc (o := s.buf.read 1) fun fmt => ?_
    change (if s.buf.length = hdrLen fmt then (if sum8 s.buf.bytes = 0#8 then _ else _) else _) =
      onScript sc (if s.buf.length = hdrLen fmt then (if sum8 s.buf.bytes = 0#8 then _ else _) else _)
    split
    · split
      · exact withRead_onScript sc (o := headerLatch s.buf) fun l => rfl
      · rfl
    · rfl

theorem dataCheck_withScript (s : State) : dataCheck (s.withScript sc) = onScript sc (dataCheck s) := by
  refine withLatch_withScript sc fun l => ?_
  change (if s.buf.length = l.size.toNat + 3 then (if sum8 s.buf.bytes = 0#8 then _ else _) else _) =
    onScript sc (if s.buf.length = l.size.toNat + 3 then (if sum8 s.buf.bytes = 0#8 then _ else _) else _)
  split
  · split <;> rfl
  · rfl

/-- The rule that consumes a byte neither reads nor writes the script of turns. -/
theorem consumeByte_withScript (b : Byte) (s : State) :
    consumeByte b (s.withScript sc) = onScript sc (consumeByte b s) := by
  unfold consumeByte
  rw [withScript_consumer]
  cases s.consumer with
  | parser r =>
    cases r <;> simp only []
    · split
      · exact rxEvent_withScript sc (fun _ => rfl) s
      · split
        · exact rxEvent_withScript sc (fun _ => rfl) s
        · exact exceptBytes_onScript sc (rxEvent_withScript sc (fun _ => rfl) s)
    · refine rxEvent_withScript sc (fun s => appendByte_withScript sc (fun s => ?_) s) s
      change (if s.buf.length = 4 then _ else _) = onScript sc (if s.buf.length = 4 then _ else _)
      split
      · exact finishSelect_withScript sc s
      · rfl
    · exact rxEvent_withScript sc (fun s => appendByte_withScript sc (headerCheck_withScript sc) s) s
    · split
      · exact rxEvent_withScript sc (fun _ => rfl) s
      · exact exceptBytes_onScript sc (rxEvent_withScript sc (fun _ => rfl) s)
    · exact rxEvent_withScript sc (fun s => appendByte_withScript sc (dataCheck_withScript sc) s) s
    · split
      · exact rxEvent_withScript sc (fun _ => rfl) s
      · split
        · refine rxEvent_withScript sc (fun s => withLatch_withScript sc fun l =>
            withRead_onScript sc (o := s.buf.readSeq 1 l.size.toNat) fun p => ?_) s
          exact congrArg Host.Outcome.next (dispatch_withScript sc (s.closeFrame .headerComplete) l p)
        · exact exceptBytes_onScript sc (rxEvent_withScript sc (fun _ => rfl) s)
  | hdrWait =>
    simp only []
    split
    · exact txEvent_withScript sc (fun _ => rfl) s
    · refine exceptBytes_onScript sc (txEvent_withScript sc (fun s => ?_) s)
      rw [noteAnswer_withScript]
      exact congrArg Host.Outcome.next (retryOrFail_withScript sc _ _)
  | dataWait =>
    simp only []
    split
    · exact txEvent_withScript sc (fun _ => rfl) s
    · refine exceptBytes_onScript sc (txEvent_withScript sc (fun s => ?_) s)
      rw [noteAnswer_withScript]
      exact congrArg Host.Outcome.next (retryOrFail_withScript sc _ _)
  | window => rfl
  | dead => rfl

/-- So do the bytes of a frame. -/
theorem consumeSeq_withScript (bs : List Byte) (s : State) :
    consumeSeq bs (s.withScript sc) = onScript sc (consumeSeq bs s) := by
  induction bs generalizing s with
  | nil => rfl
  | cons b bs ih =>
    simp only [consumeSeq, withScript_canConsume, consumeByte_withScript]
    split
    · cases consumeByte b s with
      | next u => exact ih u
      | fault f => rfl
      | refused r => rfl
    · rfl

/-- A byte that a rule consumed was the head of `RXQ`, and nothing else left it. -/
theorem consumeByte_head {b : Byte} {s t : State} (h : consumeByte b s = .next t) : s.rxq = b :: t.rxq := by
  have hnote : ∀ (v : State) c, (v.noteAnswer c).rxq = v.rxq := fun v c => by
    obtain ⟨x, e⟩ := noteAnswer_eq v c
    rw [e]; rfl
  have hretry : ∀ (v : State) u, (v.retryOrFail u).rxq = v.rxq := fun v u => by
    obtain ⟨x, e⟩ | ⟨x, e⟩ := retryOrFail_cases v u <;> rw [e]
  unfold consumeByte at h
  split at h
  · split at h
    · next hb => subst hb; obtain ⟨r, hk, rfl⟩ := execRxIdleSel_next h; exact hk.1
    · split at h
      · next hb => subst hb; obtain ⟨r, hk, rfl⟩ := execRxIdleSoh_next h; exact hk.1
      · obtain ⟨r, hk, rfl⟩ := execRxIdleOther_next h; exact hk.1
  · obtain ⟨r, hk, _, ⟨_, rfl⟩ | ⟨_, _, _, ⟨_, rfl⟩ | ⟨_, rfl⟩⟩⟩ := execRxSelectByte_next h <;> exact hk.1
  · obtain ⟨r, hk, _, ⟨rfl, _⟩ | ⟨f, _, _, ⟨_, l, _, rfl⟩ | ⟨_, rfl⟩⟩⟩ := execRxHeaderByte_next h <;> exact hk.1
  · split at h
    · next hb => subst hb; obtain ⟨r, hk, rfl⟩ := execRxHcStx_next h; exact hk.1
    · obtain ⟨r, hk, rfl⟩ := execRxHcOther_next h; exact hk.1
  · obtain ⟨r, l, hk, _, _, ⟨_, rfl⟩ | ⟨_, ⟨_, rfl⟩ | ⟨_, rfl⟩⟩⟩ := execRxDataByte_next h <;> exact hk.1
  · split at h
    · next hb => subst hb; obtain ⟨r, hk, rfl⟩ := execRxAeEnq_next h; exact hk.1
    · split at h
      · next hb =>
        subst hb
        obtain ⟨r, l, p, hk, _, _, rfl⟩ := execRxAeEot_next h
        obtain ⟨_, e⟩ | ⟨_, e⟩ := dispatch_cases ((s.taken EOT r).closeFrame .headerComplete) l p <;> rw [e] <;> exact hk.1
      · obtain ⟨r, hk, rfl⟩ := execRxAeOther_next h; exact hk.1
  · split at h
    · next hb => subst hb; obtain ⟨r, hk, rfl⟩ := execTxHdrAck_next h; exact hk.1
    · obtain ⟨_, r, hk, rfl⟩ := execTxHdrOther_next h; rw [hretry, hnote]; exact hk.1
  · split at h
    · next hb => subst hb; obtain ⟨r, hk, rfl⟩ := execTxDataAck_next h; exact hk.1
    · obtain ⟨_, r, hk, rfl⟩ := execTxDataOther_next h; rw [hretry, hnote]; exact hk.1
  · cases h
  · cases h

/-! ### One turn, one more step -/

/-- An event turn with a consumer consumes the head of `RXQ`. -/
theorem step_eventTurn {s : State} {b : Byte} {rest : List Byte} (hc : s.canConsume = true) (hq : s.rxq = b :: rest) :
    step (s.withScript (.receive .event :: sc)) = onScript sc (consumeByte b s) := by
  rw [← consumeByte_withScript]
  obtain ⟨i, _, hd, _, _, e⟩ | ⟨e, _⟩ := consumeByte_cases b (s.withScript sc)
  · rw [e]
    change State.turn (s.withScript sc) (.receive .event) = _
    simp only [State.turn, State.fetch, withScript_canConsume, hc, if_true, withScript_rxq, hq, decode, hd]
  · rw [withScript_canConsume, hc] at e; cases e

/-- An event turn with no consumer has no step (R11, R43). -/
theorem step_eventTurn_noConsumer {s : State} (hc : s.canConsume = false) :
    ∃ why, step (s.withScript (.receive .event :: sc)) = .refused (.noStep why) := by
  change ∃ why, State.turn (s.withScript sc) (.receive .event) = _
  by_cases h : s.rxq = [] <;> simp [State.turn, State.fetch, hc, h]

/-- A run of one step more. -/
theorem run_succ {k : Nat} {s u : State} (h : step s = .next u) :
    Sys2Proof.core.run (k + 1) s = Sys2Proof.core.run k u := by
  have h' : Sys2Proof.core.step s = .next u := h
  simp only [Host.Core.run, h']

/-- What a run of one step more went through. -/
theorem run_succ_next {k : Nat} {s t : State} (h : Sys2Proof.core.run (k + 1) s = .next t) :
    ∃ u, step s = .next u ∧ Sys2Proof.core.run k u = .next t := by
  cases e : step s with
  | next u => exact ⟨u, rfl, run_succ e ▸ h⟩
  | fault f =>
    have e' : Sys2Proof.core.step s = .fault f := e
    simp only [Host.Core.run, e'] at h; cases h
  | refused r =>
    have e' : Sys2Proof.core.step s = .refused r := e
    simp only [Host.Core.run, e'] at h; cases h

end Sys2Proof.Machine
end

