-- ==== Sys2Proof/Tests/Slice0.lean ====
section
/-! SUPPORT. Tests: ill-formed terms, words written out from the layouts, one step at a time from the vectors of
95_test_vectors.md, and a witness for the hypotheses of each statement. -/

namespace Sys2Proof.Tests

open Sys2Proof Sys2Proof.Machine Sys2Proof.Stmt

/-! ### Well-formedness: one ill-formed term per check -/

theorem test_wf_idle_sel : (Instr.rxIdleOther 0x31#8).wf = false := by decide
theorem test_wf_idle_soh : (Instr.rxIdleOther 0x01#8).wf = false := by decide
theorem test_wf_hc_stx : (Instr.rxHcOther 0x02#8).wf = false := by decide
theorem test_wf_ae_enq : (Instr.rxAeOther 0x05#8).wf = false := by decide
theorem test_wf_ae_eot : (Instr.rxAeOther 0x04#8).wf = false := by decide
theorem test_wf_hdr_ack : (Instr.txHdrOther 0x06#8).wf = false := by decide
theorem test_wf_dat_ack : (Instr.txDataOther 0x06#8).wf = false := by decide
theorem test_wf_data_empty : (Instr.data [] 0x03#8 0xFB#8).wf = false := by decide
theorem test_wf_data_long (p : List Byte) (h : 65536 < p.length) : (Instr.data p 0x03#8 0#8).wf = false := by
  simp only [Instr.wf, Bool.and_eq_false_iff, decide_eq_false_iff_not]
  omega
theorem test_wf_send_zero : (Instr.cmdSend 0x20#16 0x31#16 0x0F#8 0#17 []).wf = false := by decide
theorem test_wf_send_large : (Instr.cmdSend 0x20#16 0x31#16 0x0F#8 65537#17 []).wf = false := by decide
theorem test_wf_send_length : (Instr.cmdSend 0x20#16 0x31#16 0x0F#8 2#17 [0#8]).wf = false := by decide
theorem test_wf_bad_checksum_is_fine : (Instr.headerI8S8 0#5 false 0x31#8 0x20#8 0x0F#8 0x03#8 0x9D#8).wf = true := by
  decide

/-! ### Decoding: every row's word, from R71 to R76 and R89 -/

/-- What the decoder reads from link bytes. -/
def read (c : Consumer) (g : Grain) (bs : List Byte) : Decoded := decode c (some 4) g (.link bs)

theorem test_decode_sel : read .hdrWait .control [0b00110001#8] = .instr .sel := by decide
theorem test_decode_soh : read .hdrWait .control [0b00000001#8] = .instr .soh := by decide
theorem test_decode_stx : read .hdrWait .control [0b00000010#8] = .instr .stx := by decide
theorem test_decode_etx : read .hdrWait .control [0b00000011#8] = .instr .etx := by decide
theorem test_decode_eot : read .hdrWait .control [0b00000100#8] = .instr .eot := by decide
theorem test_decode_enq : read .hdrWait .control [0b00000101#8] = .instr .enq := by decide
theorem test_decode_ack : read .hdrWait .control [0b00000110#8] = .instr .ack := by decide
theorem test_decode_wait : read .hdrWait .control [0b00010000#8] = .instr .wait := by decide
theorem test_decode_nak : read .hdrWait .control [0b00010101#8] = .instr .nak := by decide
theorem test_decode_not_control : read .hdrWait .control [0x07#8] = .reject (.notControlByte 0x07#8) := by decide

theorem test_decode_select :
    read (.parser .idle) .frame [0x31#8, 0x31#8, 0x20#8, 0x05#8] = .instr (.select 0x31#8 0x20#8 0x05#8) := by decide
/-- V29: `fmt` = 0xF8. -/
theorem test_decode_header_i8s8 :
    read (.parser .idle) .frame [0x01#8, 0b11111000#8, 0x31#8, 0x20#8, 0x0F#8, 0x03#8, 0xA4#8] =
      .instr (.headerI8S8 0b11111#5 false 0x31#8 0x20#8 0x0F#8 0x03#8 0xA4#8) := by decide
/-- V21. -/
theorem test_decode_header_i8s16 :
    read (.parser .idle) .frame [0x01#8, 0b00000010#8, 0x31#8, 0x20#8, 0x80#8, 0x01#8, 0x2B#8, 0x00#8] =
      .instr (.headerI8S16 0#5 false 0x31#8 0x20#8 0x80#8 299#16 0x00#8) := by decide
/-- V23. -/
theorem test_decode_header_i16s8 :
    read (.parser .idle) .frame [0x01#8, 0b00000100#8, 0x01#8, 0x31#8, 0x00#8, 0x20#8, 0x80#8, 0x01#8, 0x28#8] =
      .instr (.headerI16S8 0#5 false 0x0131#16 0x0020#16 0x80#8 0x01#8 0x28#8) := by decide
/-- The last row of the table of section 2.5, DIR = 1. -/
theorem test_decode_header_i16s16 :
    read (.parser .idle) .frame
        [0x01#8, 0b00000111#8, 0x01#8, 0x20#8, 0x01#8, 0x31#8, 0x10#8, 0x01#8, 0x2B#8, 0x69#8] =
      .instr (.headerI16S16 0#5 true 0x0120#16 0x0131#16 0x10#8 299#16 0x69#8) := by decide
/-- V40. -/
theorem test_decode_data :
    read (.parser .headerComplete) .frame [0x02#8, 0x11#8, 0x22#8, 0x33#8, 0x44#8, 0x03#8, 0x51#8] =
      .instr (.data [0x11#8, 0x22#8, 0x33#8, 0x44#8] 0x03#8 0x51#8) := by decide
theorem test_decode_short_frame :
    read (.parser .idle) .frame [0x31#8, 0x31#8, 0x20#8] = .reject .frameIncomplete := by decide
theorem test_decode_no_frame : read (.parser .idle) .frame [0x04#8] = .reject (.notFrameMarker 0x04#8) := by decide
theorem test_decode_no_size :
    decode (.parser .headerComplete) none .frame (.link [0x02#8, 0x03#8, 0xFB#8]) = .reject .noDeclaredSize := by decide

theorem test_decode_idle_sel : read (.parser .idle) .event [0x31#8] = .instr .rxIdleSel := by decide
theorem test_decode_idle_soh : read (.parser .idle) .event [0x01#8] = .instr .rxIdleSoh := by decide
theorem test_decode_idle_other : read (.parser .idle) .event [0x02#8] = .instr (.rxIdleOther 0x02#8) := by decide
theorem test_decode_select_byte : read (.parser .select) .event [0x31#8] = .instr (.rxSelectByte 0x31#8) := by decide
theorem test_decode_header_byte : read (.parser .header) .event [0x01#8] = .instr (.rxHeaderByte 0x01#8) := by decide
theorem test_decode_hc_stx : read (.parser .headerComplete) .event [0x02#8] = .instr .rxHcStx := by decide
theorem test_decode_hc_other : read (.parser .headerComplete) .event [0x31#8] = .instr (.rxHcOther 0x31#8) := by decide
theorem test_decode_data_byte : read (.parser .data) .event [0x04#8] = .instr (.rxDataByte 0x04#8) := by decide
theorem test_decode_ae_enq : read (.parser .awaitingEnd) .event [0x05#8] = .instr .rxAeEnq := by decide
theorem test_decode_ae_eot : read (.parser .awaitingEnd) .event [0x04#8] = .instr .rxAeEot := by decide
theorem test_decode_ae_other : read (.parser .awaitingEnd) .event [0x03#8] = .instr (.rxAeOther 0x03#8) := by decide
theorem test_decode_hdr_ack : read .hdrWait .event [0x06#8] = .instr .txHdrAck := by decide
theorem test_decode_hdr_other : read .hdrWait .event [0x15#8] = .instr (.txHdrOther 0x15#8) := by decide
theorem test_decode_dat_ack : read .dataWait .event [0x06#8] = .instr .txDataAck := by decide
theorem test_decode_dat_other : read .dataWait .event [0x10#8] = .instr (.txDataOther 0x10#8) := by decide
theorem test_decode_done : decode .window none .event (.command .done) = .instr .cmdDone := by decide
theorem test_decode_send : decode .window none .event (.command (.send 0x20#16 0x31#16 0x0F#8 1#17 [0#8])) =
    .instr (.cmdSend 0x20#16 0x31#16 0x0F#8 1#17 [0#8]) := by decide
theorem test_decode_timeout : decode .hdrWait none .event (.command .timeout) = .instr .txTimeout := by decide
theorem test_decode_link_fail : decode .window none .event (.command .linkFail) = .instr .envLinkFail := by decide
theorem test_decode_reset : decode .dead none .event (.command .reset) = .instr .envReset := by decide

/-- Words numbered as spec/opcode_table.json numbers them: SEL (8 bits, match 0x31). -/
theorem test_table_sel : decodeTableWord 8 0x31 = some .sel := by decide
/-- A HEADER row: 16 bits, match 0x0102 (marker in bits 15..8). -/
theorem test_table_header : decodeTableWord 16 0x0102 = some (.headerI8S16 0#5 false 0#8 0#8 0#8 0#16 0#8) := by decide
/-- A byte that is no control byte is an event in `Idle`. -/
theorem test_table_other : decodeTableWord 8 0x07 = some (.rxIdleOther 0x07#8) := by decide

/-! ### Small states -/

/-- The installation of section 2 of 95_test_vectors.md. -/
def cfgT : Params := ⟨[0x31#16], true, .t255⟩

/-- `RXS`, `BUF` and `RXQ` as given, the rest as after reset. -/
def parserAt (r : RxState) (buf q : List Byte) : State :=
  { State.reset with cfg := cfgT, rxs := r, buf := Memory.ofBytes buf, rxq := q }

/-- The latches of V20, of the common start of section 2.5, of a header for device 0x32 (V54). -/
def latV20 : HeaderLatch := ⟨0x31#16, 0x20#16, 0x0F#8, 4#17⟩
def latV25 : HeaderLatch := ⟨0x31#16, 0x20#16, 0x0F#8, 1#17⟩
def latV54 : HeaderLatch := ⟨0x32#16, 0x20#16, 0x0F#8, 1#17⟩

/-- A parser state under a header. -/
def underHeader (l : HeaderLatch) (r : RxState) (buf q : List Byte) : State :=
  { parserAt r buf q with latches := some l }

/-- The window of the common start of section 2.5. -/
def windowAt (q : List Byte) : State := { underHeader latV25 .headerComplete [] q with busy := true }

/-- H and D of section 2.5. -/
def frameH : List Byte := [0x01#8, 0x01#8, 0x20#8, 0x31#8, 0x0F#8, 0x00#8, 0x9E#8]
def frameD : List Byte := [0x02#8, 0x00#8, 0x03#8, 0xFB#8]

/-- A SEND in the given phase and round. -/
def sendingAt (p : TxState) (round : BitVec 3) (q : List Byte) : State :=
  { windowAt q with txs := p, txRound := round, txHdr := frameH, txDat := frameD }

/-- What a next state shows; none for a stop. -/
def shows {β : Type} (r : Result) (f : State → β) : Option β :=
  match r with
  | .next s => some (f s)
  | .fault _ => none
  | .refused _ => none

/-- The refusal, if it is one. -/
def refusal : Result → Option Refusal
  | .next _ => none
  | .fault _ => none
  | .refused r => some r

/-- The next state, or the state before. -/
def after (i : Instr) (s : State) : State :=
  match exec i s with
  | .next t => t
  | .fault _ => s
  | .refused _ => s

/-! ### One step each -/

/-- V1, first byte. -/
theorem test_idle_sel :
    shows (exec .rxIdleSel (parserAt .idle [] [0x31#8, 0x31#8])) (fun t => (t.rxs, t.buf, t.rxq)) =
      some (.select, [(0, 0x31#8)], [0x31#8]) := by decide
/-- V10. -/
theorem test_idle_soh :
    shows (exec .rxIdleSoh (parserAt .idle [] [0x01#8])) (fun t => (t.rxs, t.buf)) = some (.header, [(0, 0x01#8)]) := by
  decide
/-- V8, third byte. -/
theorem test_idle_other :
    shows (exec (.rxIdleOther 0x06#8) (parserAt .idle [] [0x06#8])) (fun t => (t.rxs, t.diag, t.txOut)) =
      some (.idle, [.error (.unassociated 0x06#8)], []) := by decide
/-- V3: the fourth byte is not tested. -/
theorem test_select_registered :
    shows (exec (.rxSelectByte 0xFF#8) (parserAt .select [0x31#8, 0x31#8, 0x20#8] [0xFF#8]))
      (fun t => (t.rxs, t.buf, t.txOut)) = some (.idle, [], [0x06#8]) := by decide
/-- V2: silence. -/
theorem test_select_unregistered :
    shows (exec (.rxSelectByte 0x05#8) (parserAt .select [0x31#8, 0x32#8, 0x20#8] [0x05#8]))
      (fun t => (t.rxs, t.buf, t.txOut)) = some (.idle, [], []) := by decide
/-- V27: the largest size, a 17-bit result. -/
theorem test_header_accept :
    shows (exec (.rxHeaderByte 0x9E#8)
      (parserAt .header [0x01#8, 0x02#8, 0x31#8, 0x20#8, 0x10#8, 0xFF#8, 0xFF#8] [0x9E#8]))
      (fun t => (t.rxs, t.latches, t.txOut)) = some (.headerComplete, some ⟨0x31#16, 0x20#16, 0x10#8, 65536#17⟩, [0x06#8]) := by
  decide
/-- V22. -/
theorem test_header_nak :
    shows (exec (.rxHeaderByte 0x9D#8) (parserAt .header [0x01#8, 0x00#8, 0x31#8, 0x20#8, 0x0F#8, 0x03#8] [0x9D#8]))
      (fun t => (t.rxs, t.latches, t.txOut, t.diag)) =
      some (.idle, none, [0x15#8], [.error (.headerChecksum 0x01#8)]) := by decide
theorem test_hc_stx :
    shows (exec .rxHcStx (underHeader latV20 .headerComplete [] [0x02#8])) (fun t => (t.rxs, t.buf)) =
      some (.data, [(0, 0x02#8)]) := by decide
/-- V52, first byte. -/
theorem test_hc_other :
    shows (exec (.rxHcOther 0x31#8) (underHeader latV20 .headerComplete [] [0x31#8, 0x31#8]))
      (fun t => (t.rxs, t.buf, t.diag)) = some (.idle, [], [.error (.outOfBand 0x31#8)]) := by decide
/-- V44: the byte at the 0x03 position is not tested. -/
theorem test_data_accept :
    shows (exec (.rxDataByte 0x4D#8)
      (underHeader latV20 .data [0x02#8, 0x11#8, 0x22#8, 0x33#8, 0x44#8, 0x07#8] [0x4D#8]))
      (fun t => (t.rxs, t.buf.length, t.txOut)) = some (.awaitingEnd, 7, [0x06#8]) := by decide
/-- V42. -/
theorem test_data_nak :
    shows (exec (.rxDataByte 0x52#8)
      (underHeader latV20 .data [0x02#8, 0x11#8, 0x22#8, 0x33#8, 0x44#8, 0x03#8] [0x52#8]))
      (fun t => (t.rxs, t.buf, t.latches, t.txOut)) = some (.headerComplete, [], some latV20, [0x15#8]) := by decide
/-- V48. -/
theorem test_ae_enq :
    shows (exec .rxAeEnq (underHeader latV25 .awaitingEnd frameD [0x05#8, 0x05#8]))
      (fun t => (t.rxs, t.buf.length, t.txOut, t.rxq)) = some (.awaitingEnd, 4, [0x06#8], [0x05#8]) := by decide
/-- V49, with the frame D. -/
theorem test_ae_eot :
    shows (exec .rxAeEot (underHeader latV25 .awaitingEnd frameD [0x04#8])) (fun t => (t.rxs, t.busy, t.txOut, t.reqOut)) =
      some (.headerComplete, true, [], [⟨0x31#16, 0x20#16, 0x0F#8, 1#17, [0#8]⟩]) := by decide
/-- V54. -/
theorem test_ae_eot_unregistered :
    shows (exec .rxAeEot (underHeader latV54 .awaitingEnd frameD [0x04#8])) (fun t => (t.busy, t.reqOut, t.diag)) =
      some (false, [], [.error (.unregistered 0x32#16)]) := by decide
/-- V50, second byte. -/
theorem test_ae_other :
    shows (exec (.rxAeOther 0x15#8) (underHeader latV25 .awaitingEnd frameD [0x15#8]))
      (fun t => (t.rxs, t.buf.length, t.diag)) = some (.awaitingEnd, 4, [.error (.unexpectedInAwaitingEnd 0x15#8)]) := by
  decide
/-- V53. -/
theorem test_done : shows (exec .cmdDone (windowAt [])) (fun t => (t.busy, t.rxs, t.txOut)) =
    some (false, .headerComplete, []) := by decide
/-- T9: the drain. -/
theorem test_send :
    shows (exec (.cmdSend 0x20#16 0x31#16 0x0F#8 1#17 [0#8]) (windowAt [0x04#8, 0x31#8, 0x31#8]))
      (fun t => (t.rxq, t.txs, t.txOut, t.txDat)) = some ([], .txHdrWait, frameH, frameD) := by decide
/-- T12. -/
theorem test_send_length :
    refusal (exec (.cmdSend 0x20#16 0x31#16 0x0F#8 2#17 [0#8]) (windowAt [])) = some .sendOperands := by decide
/-- The table of section 2.5: both IDs wide, size 300. -/
theorem test_send_header_wide : sendHeader cfgT 0x0120#16 0x0131#16 0x10#8 300#17 =
    [0x01#8, 0x07#8, 0x01#8, 0x20#8, 0x01#8, 0x31#8, 0x10#8, 0x01#8, 0x2B#8, 0x69#8] := by decide
/-- The table of section 2.5: size 256 under both thresholds. -/
theorem test_send_header_threshold :
    sendHeader cfgT 0x20#16 0x31#16 0x10#8 256#17 = [0x01#8, 0x03#8, 0x20#8, 0x31#8, 0x10#8, 0x00#8, 0xFF#8, 0x9C#8] ∧
    sendHeader ⟨[], false, .t256⟩ 0x20#16 0x31#16 0x10#8 256#17 =
      [0x01#8, 0x00#8, 0x20#8, 0x31#8, 0x10#8, 0xFF#8, 0x9F#8] := by decide
/-- T1. -/
theorem test_hdr_ack : shows (exec .txHdrAck (sendingAt .txHdrWait 3#3 [0x06#8])) (fun t => (t.txs, t.txRound, t.txOut)) =
    some (.txDataWait, 1#3, frameD) := by decide
/-- T4. -/
theorem test_hdr_other :
    shows (exec (.txHdrOther 0x10#8) (sendingAt .txHdrWait 1#3 [0x10#8])) (fun t => (t.txRound, t.txOut, t.diag)) =
      some (2#3, frameH, [.error (.unexpectedHandshake 0x10#8)]) := by decide
/-- T5, fourth wait. -/
theorem test_hdr_fail :
    shows (exec (.txHdrOther 0x15#8) (sendingAt .txHdrWait 4#3 [0x15#8]))
      (fun t => (t.txs, t.txStatus, t.busy, t.txOut, t.statusOut)) = some (.txIdle, .fail, true, [], [.fail]) := by decide
/-- T3. -/
theorem test_timeout : shows (exec .txTimeout (sendingAt .txHdrWait 1#3 [])) (fun t => (t.txRound, t.txOut)) =
    some (2#3, frameH) := by decide
/-- X5. -/
theorem test_timeout_not_while_queued : refusal (exec .txTimeout (sendingAt .txHdrWait 1#3 [0x15#8])) = some .notEnabled := by
  decide
/-- T1, the end. -/
theorem test_data_ack :
    shows (exec .txDataAck (sendingAt .txDataWait 1#3 [0x06#8])) (fun t => (t.txs, t.txStatus, t.txOut, t.busy)) =
      some (.txIdle, .ok, [0x04#8], true) := by decide
/-- T7: the header is not resent. -/
theorem test_data_other :
    shows (exec (.txDataOther 0x15#8) (sendingAt .txDataWait 1#3 [0x15#8])) (fun t => (t.txRound, t.txOut, t.diag)) =
      some (2#3, frameD, [.noAnswer 0x15#8]) := by decide
/-- T10. -/
theorem test_link_fail :
    shows (exec .envLinkFail (sendingAt .txHdrWait 1#3 [])) (fun t => (t.alive, t.txStatus, t.txs, t.statusOut)) =
      some (false, .fail, .txIdle, []) := by decide
/-- X4. -/
theorem test_link_fail_dead : refusal (exec .envLinkFail { windowAt [] with alive := false }) = some .notEnabled := by decide
/-- X1. -/
theorem test_reset :
    shows (exec .envReset (parserAt .header [0x01#8, 0x00#8, 0x31#8] [0x20#8]))
      (fun t => (t.rxs, t.buf, t.rxq, t.latches)) = some (.idle, [], [], none) := by decide
/-- V1 as one frame. -/
theorem test_select_frame :
    shows (exec (.select 0x31#8 0x20#8 0x05#8) (parserAt .idle [] [0x31#8, 0x31#8, 0x20#8, 0x05#8]))
      (fun t => (t.rxs, t.rxq, t.txOut)) = some (.idle, [], [0x06#8]) := by decide
/-- V30 as one frame. -/
theorem test_header_i8s8 :
    shows (exec (.headerI8S8 0#5 true 0x31#8 0x20#8 0x0F#8 0x03#8 0x9B#8)
      (parserAt .idle [] [0x01#8, 0x01#8, 0x31#8, 0x20#8, 0x0F#8, 0x03#8, 0x9B#8])) (fun t => (t.latches, t.txOut)) =
      some (some latV20, [0x06#8]) := by decide
/-- V21 as one frame. -/
theorem test_header_i8s16 :
    shows (exec (.headerI8S16 0#5 false 0x31#8 0x20#8 0x80#8 299#16 0x00#8)
      (parserAt .idle [] [0x01#8, 0x02#8, 0x31#8, 0x20#8, 0x80#8, 0x01#8, 0x2B#8, 0x00#8])) (fun t => (t.latches, t.txOut)) =
      some (some ⟨0x31#16, 0x20#16, 0x80#8, 300#17⟩, [0x06#8]) := by decide
/-- V23 as one frame. -/
theorem test_header_i16s8 :
    shows (exec (.headerI16S8 0#5 false 0x0131#16 0x0020#16 0x80#8 0x01#8 0x28#8)
      (parserAt .idle [] [0x01#8, 0x04#8, 0x01#8, 0x31#8, 0x00#8, 0x20#8, 0x80#8, 0x01#8, 0x28#8]))
      (fun t => (t.latches, t.txOut)) = some (some ⟨0x0131#16, 0x20#16, 0x80#8, 2#17⟩, [0x06#8]) := by decide
/-- V24 as one frame. -/
theorem test_header_i16s16 :
    shows (exec (.headerI16S16 0#5 false 0x0131#16 0x0020#16 0x80#8 299#16 0xFB#8)
      (parserAt .idle [] [0x01#8, 0x06#8, 0x01#8, 0x31#8, 0x00#8, 0x20#8, 0x80#8, 0x01#8, 0x2B#8, 0xFB#8]))
      (fun t => (t.latches, t.txOut)) = some (some ⟨0x0131#16, 0x20#16, 0x80#8, 300#17⟩, [0x06#8]) := by decide
/-- V41 as one frame: control values in the payload. -/
theorem test_data_frame :
    shows (exec (.data [0x04#8, 0x03#8, 0x02#8, 0x01#8] 0x03#8 0xF1#8)
      (underHeader latV20 .headerComplete [] [0x02#8, 0x04#8, 0x03#8, 0x02#8, 0x01#8, 0x03#8, 0xF1#8]))
      (fun t => (t.rxs, t.reqOut, t.txOut)) = some (.awaitingEnd, [], [0x06#8]) := by decide
/-- A control byte does what its event does in the present state: SEL in `Idle`, and in `HeaderComplete`. -/
theorem test_ctl_sel : shows (exec .sel (parserAt .idle [] [0x31#8])) (fun t => t.rxs) = some .select := by decide
theorem test_ctl_sel_swallowed :
    shows (exec .sel (underHeader latV20 .headerComplete [] [0x31#8])) (fun t => t.rxs) = some .idle := by decide
theorem test_ctl_soh : shows (exec .soh (parserAt .idle [] [0x01#8])) (fun t => t.rxs) = some .header := by decide
theorem test_ctl_stx : shows (exec .stx (underHeader latV20 .headerComplete [] [0x02#8])) (fun t => t.rxs) = some .data := by
  decide
theorem test_ctl_etx : shows (exec .etx (sendingAt .txHdrWait 1#3 [0x03#8])) (fun t => t.diag) =
    some [.noAnswer 0x03#8] := by decide
theorem test_ctl_eot : shows (exec .eot (underHeader latV25 .awaitingEnd frameD [0x04#8])) (fun t => t.busy) =
    some true := by decide
theorem test_ctl_enq : shows (exec .enq (underHeader latV25 .awaitingEnd frameD [0x05#8])) (fun t => t.txOut) =
    some [0x06#8] := by decide
theorem test_ctl_ack : shows (exec .ack (sendingAt .txDataWait 1#3 [0x06#8])) (fun t => t.txStatus) = some .ok := by decide
theorem test_ctl_wait : shows (exec .wait (sendingAt .txDataWait 1#3 [0x10#8])) (fun t => t.txRound) = some 2#3 := by decide
theorem test_ctl_nak : shows (exec .nak (sendingAt .txHdrWait 4#3 [0x15#8])) (fun t => t.txStatus) = some .fail := by decide
/-- A table word runs as the next step: V10's byte. -/
theorem test_fetch_word : shows (step (State.reset.withFetchWord 8 0x01)) (fun t => t.rxs) = some .header := by decide

/-! ### Checksum arithmetic (section 2.1) and the buffer -/

theorem test_sum_wraps : sum8 [0x80#8, 0x80#8] = 0#8 ∧ cks [0xFF#8, 0xFF#8] = 0x02#8 := by decide
theorem test_cks_header : cks [0x01#8, 0x00#8, 0x31#8, 0x20#8, 0x0F#8, 0x03#8] = 0x9C#8 := by decide
theorem test_hdr_len : hdrLen 0xF8#8 = 7 ∧ hdrLen 0x02#8 = 8 ∧ hdrLen 0x04#8 = 9 ∧ hdrLen 0x07#8 = 10 := by decide
theorem test_reset_memory : State.reset.buf.wf := Memory.wf_nil
theorem test_bad : frameBad [0x02#8, 0xFF#8] = [0x02#8, 0x00#8] := by decide
/-- The listing of P4 begins with this header. -/
theorem test_listing_header : frameHeader 0x00#8 0x31#16 0x20#16 0x21#8 2#17 =
    [0x01#8, 0x00#8, 0x31#8, 0x20#8, 0x21#8, 0x01#8, 0x8C#8] := by decide

/-! ### Witnesses: for each statement with hypotheses a state and operands that meet all of them; for several clauses one
each, at a boundary where there is one -/

/-- `DecodeEncodeRoundTrip`: an event in its own consumer state; a data frame of the smallest payload. -/
theorem witness_DecodeEncodeRoundTrip_event :
    (Instr.rxIdleOther 0x00#8).wf = true ∧
      (isEvent (.rxIdleOther 0x00#8) = true → Consumer.parser .idle = consumerOf (.rxIdleOther 0x00#8)) := by decide
theorem witness_DecodeEncodeRoundTrip_data :
    (Instr.data [0x00#8] 0x03#8 0xFB#8).wf = true ∧
      (isEvent (.data [0x00#8] 0x03#8 0xFB#8) = true → Consumer.dead = consumerOf (.data [0x00#8] 0x03#8 0xFB#8)) := by
  decide
/-- `EncodeInvertsDecode`, at each grain. -/
theorem witness_EncodeInvertsDecode_event :
    decode .hdrWait none .event (.link [0x15#8, 0x00#8]) = .instr (.txHdrOther 0x15#8) := by decide
theorem witness_EncodeInvertsDecode_control : decode .dead none .control (.link [0x10#8]) = .instr .wait := by decide
theorem witness_EncodeInvertsDecode_frame :
    decode (.parser .headerComplete) (some 1) .frame (.link [0x02#8, 0x00#8, 0x03#8, 0xFB#8, 0x04#8]) =
      .instr (.data [0x00#8] 0x03#8 0xFB#8) := by decide
/-- `SentHeaderParsesBack`, at both ends of the size's range. -/
theorem witness_SentHeaderParsesBack_least : 1 ≤ (1#17 : Size).toNat ∧ (1#17 : Size).toNat ≤ 65536 := by decide
theorem witness_SentHeaderParsesBack_greatest : 1 ≤ (65536#17 : Size).toNat ∧ (65536#17 : Size).toNat ≤ 65536 := by decide

/-- A state whose script is given. -/
def scripted (s : State) (sc : List Turn) : State := { s with script := sc }

/-- `StepRunsDecoded`, the four clauses. -/
theorem witness_StepRunsDecoded_frame :
    let s := scripted (parserAt .idle [] [0x31#8, 0x31#8, 0x20#8, 0x05#8]) [.receive .frame]
    s.script = .receive .frame :: [] ∧ s.canConsume = true ∧
      decode s.consumer (s.latches.map fun l => l.size.toNat) .frame (.link s.rxq) =
        .instr (.select 0x31#8 0x20#8 0x05#8) := by decide
theorem witness_StepRunsDecoded_noTurn :
    let s := sendingAt .txHdrWait 4#3 [0x15#8]
    s.script = [] ∧ s.canConsume = true ∧
      decode s.consumer (s.latches.map fun l => l.size.toNat) .event (.link s.rxq) = .instr (.txHdrOther 0x15#8) := by
  decide
theorem witness_StepRunsDecoded_send :
    (scripted (windowAt []) [.command (.send 0x20#16 0x31#16 0x0F#8 1#17 [0#8])]).script =
      .command (.send 0x20#16 0x31#16 0x0F#8 1#17 [0#8]) :: [] := by decide
theorem witness_StepRunsDecoded_done :
    (scripted (windowAt []) [.command .done]).script = .command .done :: [] := by decide
theorem witness_StepRunsDecoded_timeout :
    (scripted (windowAt []) [.command .timeout]).script = .command .timeout :: [] := by decide
theorem witness_StepRunsDecoded_linkFail :
    (scripted (windowAt []) [.command .linkFail]).script = .command .linkFail :: [] := by decide
theorem witness_StepRunsDecoded_reset :
    (scripted (windowAt []) [.command .reset]).script = .command .reset :: [] := by decide
theorem witness_StepRunsDecoded_arrive :
    let s := scripted (windowAt []) [.arrive 0x04#8]
    s.script = .arrive 0x04#8 :: [] ∧ s.alive = true := by decide
/-- `NoConsumerNoStep`, the three clauses. -/
theorem witness_NoConsumerNoStep_empty :
    let s := scripted (parserAt .idle [] []) [.receive .event]
    s.script = .receive .event :: [] ∧ s.rxq = [] := by decide
theorem witness_NoConsumerNoStep_window :
    let s := scripted (windowAt [0x31#8]) [.receive .event]
    s.script = .receive .event :: [] ∧ s.rxq ≠ [] ∧ s.alive = true ∧ s.busy = true ∧ s.txs = .txIdle := by decide
theorem witness_NoConsumerNoStep_dead :
    let s := scripted { windowAt [0x31#8] with alive := false } [.receive .event]
    s.script = .receive .event :: [] ∧ s.rxq ≠ [] ∧ s.alive = false := by decide
/-- `DisabledEventRefused`: the timeout while a byte is queued (X5). -/
theorem witness_DisabledEventRefused :
    isEvent .txTimeout = true ∧ ¬ Enabled .txTimeout (sendingAt .txHdrWait 1#3 [0x15#8]) := by
  refine ⟨by decide, ?_⟩
  rintro ⟨-, -, h⟩
  cases h

theorem witness_SelectMarkerOpensSelect : ParserReady (parserAt .idle [] [0x31#8]) .idle 0x31#8 [] := by
  unfold ParserReady; decide
theorem witness_HeaderMarkerOpensHeader : ParserReady (parserAt .idle [] [0x01#8]) .idle 0x01#8 [] := by
  unfold ParserReady; decide
theorem witness_UnassociatedByteDropped :
    (0x30#8 : Byte) ≠ 0x31#8 ∧ (0x30#8 : Byte) ≠ 0x01#8 ∧ ParserReady (parserAt .idle [] [0x30#8]) .idle 0x30#8 [] := by
  unfold ParserReady; decide
/-- `SelectByteStoresThenAnswers`: the third byte; the fourth. -/
theorem witness_SelectByteStoresThenAnswers_third :
    let s := parserAt .select [0x31#8, 0x31#8] [0x20#8]
    ParserReady s .select 0x20#8 [] ∧ s.buf = Memory.ofBytes [0x31#8, 0x31#8] ∧
      [0x31#8, 0x31#8].length ≠ 3 ∧ [0x31#8, 0x31#8].length < 65539 := by
  unfold ParserReady; decide
theorem witness_SelectByteStoresThenAnswers_fourth :
    let s := parserAt .select [0x31#8, 0x31#8, 0x20#8] [0x05#8]
    ParserReady s .select 0x05#8 [] ∧ s.buf = Memory.ofBytes [0x31#8, 0x31#8, 0x20#8] := by
  unfold ParserReady; decide

/-- V20 without its last byte, V22's last byte and V20's. -/
def bodyV20 : List Byte := [0x01#8, 0x00#8, 0x31#8, 0x20#8, 0x0F#8, 0x03#8]

/-- `HeaderByteStored`: the sixth byte of V20. -/
theorem witness_HeaderByteStored :
    let s := parserAt .header [0x01#8, 0x00#8, 0x31#8, 0x20#8, 0x0F#8] [0x03#8]
    ParserReady s .header 0x03#8 [] ∧ s.buf = Memory.ofBytes [0x01#8, 0x00#8, 0x31#8, 0x20#8, 0x0F#8] ∧
      [0x01#8, 0x00#8, 0x31#8, 0x20#8, 0x0F#8].length < 65539 ∧ ¬ HeaderComplete bodyV20 := by
  refine ⟨by unfold ParserReady; decide, by decide, by decide, ?_⟩
  rintro ⟨m, fmt, rest, h, hl⟩
  cases h
  revert hl
  decide
/-- `GoodHeaderLatched`: one header of each layout (V20, V27, V23, V24). -/
theorem witness_GoodHeaderLatched_i8s8 :
    let s := parserAt .header bodyV20 [0x9C#8]
    ParserReady s .header 0x9C#8 [] ∧ s.buf = Memory.ofBytes bodyV20 ∧
      HeaderHas (bodyV20 ++ [0x9C#8]) 0x31#16 0x20#16 0x0F#8 3 ∧ sumNat (bodyV20 ++ [0x9C#8]) = 0 :=
  ⟨by unfold ParserReady; decide, by decide,
    ⟨_, _, _, .inl ⟨by decide, by decide, _, _, _, rfl, by decide, by decide, by decide⟩⟩, by decide⟩
theorem witness_GoodHeaderLatched_i8s16 :
    let bs := [0x01#8, 0x02#8, 0x31#8, 0x20#8, 0x10#8, 0xFF#8, 0xFF#8]
    let s := parserAt .header bs [0x9E#8]
    ParserReady s .header 0x9E#8 [] ∧ s.buf = Memory.ofBytes bs ∧
      HeaderHas (bs ++ [0x9E#8]) 0x31#16 0x20#16 0x10#8 65535 ∧ sumNat (bs ++ [0x9E#8]) = 0 :=
  ⟨by unfold ParserReady; decide, by decide,
    ⟨_, _, _, .inr (.inl ⟨by decide, by decide, _, _, _, _, rfl, by decide, by decide, by decide⟩)⟩, by decide⟩
theorem witness_GoodHeaderLatched_i16s8 :
    let bs := [0x01#8, 0x04#8, 0x01#8, 0x31#8, 0x00#8, 0x20#8, 0x80#8, 0x01#8]
    let s := parserAt .header bs [0x28#8]
    ParserReady s .header 0x28#8 [] ∧ s.buf = Memory.ofBytes bs ∧
      HeaderHas (bs ++ [0x28#8]) 0x0131#16 0x20#16 0x80#8 1 ∧ sumNat (bs ++ [0x28#8]) = 0 :=
  ⟨by unfold ParserReady; decide, by decide,
    ⟨_, _, _, .inr (.inr (.inl ⟨by decide, by decide, _, _, _, _, _, rfl, by decide, by decide, by decide⟩))⟩, by decide⟩
theorem witness_GoodHeaderLatched_i16s16 :
    let bs := [0x01#8, 0x06#8, 0x01#8, 0x31#8, 0x00#8, 0x20#8, 0x80#8, 0x01#8, 0x2B#8]
    let s := parserAt .header bs [0xFB#8]
    ParserReady s .header 0xFB#8 [] ∧ s.buf = Memory.ofBytes bs ∧
      HeaderHas (bs ++ [0xFB#8]) 0x0131#16 0x20#16 0x80#8 299 ∧ sumNat (bs ++ [0xFB#8]) = 0 :=
  ⟨by unfold ParserReady; decide, by decide,
    ⟨_, _, _, .inr (.inr (.inr ⟨by decide, by decide, _, _, _, _, _, _, rfl, by decide, by decide, by decide⟩))⟩, by decide⟩
/-- V22. -/
theorem witness_BadHeaderNaked :
    let s := parserAt .header bodyV20 [0x9D#8]
    ParserReady s .header 0x9D#8 [] ∧ s.buf = Memory.ofBytes bodyV20 ∧ HeaderComplete (bodyV20 ++ [0x9D#8]) ∧
      sumNat (bodyV20 ++ [0x9D#8]) ≠ 0 :=
  ⟨by unfold ParserReady; decide, by decide, ⟨_, _, _, rfl, by decide⟩, by decide⟩

theorem witness_DataMarkerOpensData :
    ParserReady (underHeader latV20 .headerComplete [] [0x02#8]) .headerComplete 0x02#8 [] := by
  unfold ParserReady; decide
theorem witness_OutOfBandByteSwallowed :
    (0x31#8 : Byte) ≠ 0x02#8 ∧
      ParserReady (underHeader latV20 .headerComplete [] [0x31#8, 0x31#8]) .headerComplete 0x31#8 [0x31#8] := by
  unfold ParserReady; decide
/-- `DataByteStoredAckedOrNaked`: before the last byte; the last byte with the sum zero; with another sum. -/
theorem witness_DataByteStoredAckedOrNaked_stored :
    let s := underHeader latV25 .data [0x02#8, 0x00#8] [0x03#8]
    ParserReady s .data 0x03#8 [] ∧ s.buf = Memory.ofBytes [0x02#8, 0x00#8] ∧ [0x02#8, 0x00#8].length < 65539 ∧
      s.latches = some latV25 ∧ [0x02#8, 0x00#8].length + 1 ≠ latV25.size.toNat + 3 := by
  unfold ParserReady; decide
theorem witness_DataByteStoredAckedOrNaked_acked :
    let s := underHeader latV25 .data [0x02#8, 0x00#8, 0x03#8] [0xFB#8]
    ParserReady s .data 0xFB#8 [] ∧ s.buf = Memory.ofBytes [0x02#8, 0x00#8, 0x03#8] ∧
      [0x02#8, 0x00#8, 0x03#8].length < 65539 ∧ s.latches = some latV25 ∧
      [0x02#8, 0x00#8, 0x03#8].length + 1 = latV25.size.toNat + 3 ∧ sumNat [0x02#8, 0x00#8, 0x03#8, 0xFB#8] = 0 := by
  unfold ParserReady; decide
theorem witness_DataByteStoredAckedOrNaked_naked :
    let s := underHeader latV25 .data [0x02#8, 0x00#8, 0x03#8] [0xFC#8]
    ParserReady s .data 0xFC#8 [] ∧ s.buf = Memory.ofBytes [0x02#8, 0x00#8, 0x03#8] ∧
      [0x02#8, 0x00#8, 0x03#8].length < 65539 ∧ s.latches = some latV25 ∧
      [0x02#8, 0x00#8, 0x03#8].length + 1 = latV25.size.toNat + 3 ∧ sumNat [0x02#8, 0x00#8, 0x03#8, 0xFC#8] ≠ 0 := by
  unfold ParserReady; decide
theorem witness_EnquiryRepeatsAck :
    ParserReady (underHeader latV25 .awaitingEnd frameD [0x05#8]) .awaitingEnd 0x05#8 [] := by
  unfold ParserReady; decide
/-- `EotDispatchesRequest`: a registered destination, an unregistered one. -/
theorem witness_EotDispatchesRequest_registered :
    let s := underHeader latV25 .awaitingEnd frameD [0x04#8]
    ParserReady s .awaitingEnd 0x04#8 [] ∧ s.latches = some latV25 ∧ s.buf = Memory.ofBytes frameD ∧
      latV25.size.toNat + 1 ≤ frameD.length ∧ latV25.did ∈ s.cfg.reg := by
  unfold ParserReady; decide
theorem witness_EotDispatchesRequest_unregistered :
    let s := underHeader latV54 .awaitingEnd frameD [0x04#8]
    ParserReady s .awaitingEnd 0x04#8 [] ∧ s.latches = some latV54 ∧ s.buf = Memory.ofBytes frameD ∧
      latV54.size.toNat + 1 ≤ frameD.length ∧ latV54.did ∉ s.cfg.reg := by
  unfold ParserReady; decide
theorem witness_AwaitingEndDropsOthers :
    (0x03#8 : Byte) ≠ 0x05#8 ∧ (0x03#8 : Byte) ≠ 0x04#8 ∧
      ParserReady (underHeader latV25 .awaitingEnd frameD [0x03#8]) .awaitingEnd 0x03#8 [] := by
  unfold ParserReady; decide
theorem witness_DoneClosesWindow :
    (windowAt []).alive = true ∧ (windowAt []).busy = true ∧ (windowAt []).txs = .txIdle := by decide
theorem witness_PipelinedFollowUp :
    let s := underHeader latV25 .headerComplete [] [0x02#8, 0x00#8, 0x03#8, 0xFB#8, 0x04#8]
    s.alive = true ∧ s.busy = false ∧ s.rxs = .headerComplete ∧ s.latches = some latV25 ∧ latV25.did ∈ s.cfg.reg ∧
      1 ≤ latV25.size.toNat ∧ latV25.size.toNat ≤ 65536 ∧ [0x00#8].length = latV25.size.toNat ∧
      sumNat ([0x02#8] ++ [0x00#8] ++ [0x03#8, 0xFB#8]) = 0 ∧
      s.rxq = [0x02#8] ++ [0x00#8] ++ [0x03#8, 0xFB#8] ++ 0x04#8 :: [] := by decide

theorem witness_SendDrainsAndSendsHeader :
    let s := windowAt [0x04#8]
    s.alive = true ∧ s.busy = true ∧ s.txs = .txIdle ∧ 1 ≤ (1#17 : Size).toNat ∧ (1#17 : Size).toNat ≤ 65536 ∧
      [0x00#8].length = (1#17 : Size).toNat := by decide
/-- `IllegalSendRefused`: the three alternatives (T12). -/
theorem witness_IllegalSendRefused_zero :
    (windowAt []).alive = true ∧ (windowAt []).busy = true ∧ (windowAt []).txs = .txIdle ∧ (0#17 : Size).toNat = 0 := by
  decide
theorem witness_IllegalSendRefused_large :
    (windowAt []).alive = true ∧ (windowAt []).busy = true ∧ (windowAt []).txs = .txIdle ∧
      65536 < (65537#17 : Size).toNat := by decide
theorem witness_IllegalSendRefused_length :
    (windowAt []).alive = true ∧ (windowAt []).busy = true ∧ (windowAt []).txs = .txIdle ∧
      [0x00#8].length ≠ (2#17 : Size).toNat := by decide
theorem witness_HeaderAckSendsData : SenderReady (sendingAt .txHdrWait 4#3 [0x06#8]) .txHdrWait 0x06#8 [] := by
  unfold SenderReady; decide
/-- `HeaderRetryOrFail`: the third round, the fourth. -/
theorem witness_HeaderRetryOrFail_retry :
    (0x15#8 : Byte) ≠ 0x06#8 ∧ SenderReady (sendingAt .txHdrWait 3#3 [0x15#8]) .txHdrWait 0x15#8 [] ∧
      (sendingAt .txHdrWait 3#3 [0x15#8]).txRound.toNat < 4 := by
  unfold SenderReady; decide
theorem witness_HeaderRetryOrFail_fail :
    (0x10#8 : Byte) ≠ 0x06#8 ∧ SenderReady (sendingAt .txHdrWait 4#3 [0x10#8]) .txHdrWait 0x10#8 [] ∧
      ¬ (sendingAt .txHdrWait 4#3 [0x10#8]).txRound.toNat < 4 := by
  unfold SenderReady; decide
theorem witness_DataRetryOrFail_retry :
    (0x15#8 : Byte) ≠ 0x06#8 ∧ SenderReady (sendingAt .txDataWait 3#3 [0x15#8]) .txDataWait 0x15#8 [] ∧
      (sendingAt .txDataWait 3#3 [0x15#8]).txRound.toNat < 4 := by
  unfold SenderReady; decide
theorem witness_DataRetryOrFail_fail :
    (0x10#8 : Byte) ≠ 0x06#8 ∧ SenderReady (sendingAt .txDataWait 4#3 [0x10#8]) .txDataWait 0x10#8 [] ∧
      ¬ (sendingAt .txDataWait 4#3 [0x10#8]).txRound.toNat < 4 := by
  unfold SenderReady; decide
theorem witness_TimeoutRetriesOrFails_header :
    let s := sendingAt .txHdrWait 3#3 []
    s.alive = true ∧ s.rxq = [] ∧ s.txs ≠ .txIdle ∧ s.txRound.toNat < 4 := by decide
theorem witness_TimeoutRetriesOrFails_data :
    let s := sendingAt .txDataWait 4#3 []
    s.alive = true ∧ s.rxq = [] ∧ s.txs ≠ .txIdle ∧ ¬ s.txRound.toNat < 4 := by decide
theorem witness_DataAckEndsSend : SenderReady (sendingAt .txDataWait 1#3 [0x06#8]) .txDataWait 0x06#8 [] := by
  unfold SenderReady; decide

/-- `HeaderRetryBound` (T5): a SEND, then a timeout, a NAK and two timeouts. -/
theorem witness_HeaderRetryBound :
    ∃ s0 s1 s2 s3 s4 : State,
      exec (.cmdSend 0x20#16 0x31#16 0x0F#8 1#17 [0#8]) (windowAt []) = .next s0 ∧
        WaitFails s0 s1 ∧ WaitFails s1 s2 ∧ WaitFails s2 s3 ∧ WaitFails s3 s4 :=
  ⟨_, _, _, _, _, rfl, ⟨[], .txTimeout, .inl rfl, rfl⟩,
    ⟨[0x15#8], .txHdrOther 0x15#8, .inr ⟨0x15#8, by decide, .inl rfl⟩, rfl⟩, ⟨[], .txTimeout, .inl rfl, rfl⟩,
    ⟨[], .txTimeout, .inl rfl, rfl⟩⟩
/-- `DataRetryBound` (T7). -/
theorem witness_DataRetryBound :
    ∃ s0 s1 s2 s3 s4 : State, (sendingAt .txHdrWait 1#3 [0x06#8]).busy = true ∧
      exec .txHdrAck (sendingAt .txHdrWait 1#3 [0x06#8]) = .next s0 ∧
        WaitFails s0 s1 ∧ WaitFails s1 s2 ∧ WaitFails s2 s3 ∧ WaitFails s3 s4 :=
  ⟨_, _, _, _, _, rfl, rfl, ⟨[0x15#8], .txDataOther 0x15#8, .inr ⟨0x15#8, by decide, .inr rfl⟩, rfl⟩,
    ⟨[], .txTimeout, .inl rfl, rfl⟩, ⟨[], .txTimeout, .inl rfl, rfl⟩, ⟨[], .txTimeout, .inl rfl, rfl⟩⟩

theorem witness_LinkFailureKills : (sendingAt .txDataWait 2#3 []).alive = true := by decide

/-! ### States that meet the invariant -/

/-- The parser states of the tests meet the invariant where nothing is half received. -/
theorem inv_idle (q : List Byte) (sc : List Turn) : (scripted (parserAt .idle [] q) sc).Inv :=
  ⟨Memory.wf_nil, (fun _ h => nomatch h), fun _ => rfl, fun _ h => absurd rfl h, (fun _ h => nomatch h)⟩

/-- A SEND in its data wait meets the invariant. -/
theorem inv_sending (q : List Byte) : (sendingAt .txDataWait 4#3 q).Inv where
  wf := Memory.wf_nil
  size := by rintro l h; cases h; decide
  parser := fun _ => ⟨rfl, latV25, rfl, by decide⟩
  sender := fun _ _ => ⟨rfl, by show 1 ≤ (4#3 : BitVec 3).toNat; decide, by show (4#3 : BitVec 3).toNat ≤ 4; decide,
    by show sum8 frameH = 0#8; decide, by show sum8 frameD = 0#8; decide⟩
  window := fun _ _ => rfl

/-- `ControlByteRunsItsEvent`: in `Idle`, in the sender's last round. -/
theorem witness_ControlByteRunsItsEvent_idle :
    let s := parserAt .idle [] [0x31#8]
    s.Inv ∧ s.canConsume = true ∧ (Instr.sel, (0x31#8 : Byte)) ∈ controlBytes ∧ s.rxq = 0x31#8 :: [] ∧
      decodeEvent s.consumer 0x31#8 = .instr .rxIdleSel :=
  ⟨inv_idle _ [], by decide, by decide, by decide, by decide⟩
theorem witness_ControlByteRunsItsEvent_sending :
    let s := sendingAt .txDataWait 4#3 [0x10#8]
    s.Inv ∧ s.canConsume = true ∧ (Instr.wait, (0x10#8 : Byte)) ∈ controlBytes ∧ s.rxq = 0x10#8 :: [] ∧
      decodeEvent s.consumer 0x10#8 = .instr (.txDataOther 0x10#8) :=
  ⟨inv_sending _, by decide, by decide, by decide, by decide⟩
theorem witness_SelectFrameAnswered :
    let s := parserAt .idle [] [0x31#8, 0x31#8, 0x20#8, 0xFF#8]
    s.alive = true ∧ s.busy = false ∧ s.rxs = .idle ∧ s.rxq = [0x31#8, 0x31#8, 0x20#8, 0xFF#8] ++ [] := by decide
/-- `HeaderFrameAckedOrNaked`: an accepted one of each layout, and V22. -/
theorem witness_HeaderFrameAckedOrNaked_i8s8 :
    let h := bodyV20 ++ [0x9C#8]
    let i := Instr.headerI8S8 0#5 false 0x31#8 0x20#8 0x0F#8 0x03#8 0x9C#8
    let s := parserAt .idle [] h
    s.alive = true ∧ s.busy = false ∧ s.rxs = .idle ∧ isHeader i = true ∧ encode i = .link h ∧
      HeaderHas h 0x31#16 0x20#16 0x0F#8 3 ∧ s.rxq = h ++ [] ∧ sumNat h = 0 :=
  ⟨by decide, by decide, by decide, by decide, by decide,
    ⟨_, _, _, .inl ⟨by decide, by decide, _, _, _, rfl, by decide, by decide, by decide⟩⟩, by decide, by decide⟩
theorem witness_HeaderFrameAckedOrNaked_bad :
    let h := bodyV20 ++ [0x9D#8]
    let i := Instr.headerI8S8 0#5 false 0x31#8 0x20#8 0x0F#8 0x03#8 0x9D#8
    let s := parserAt .idle [] h
    s.alive = true ∧ s.busy = false ∧ s.rxs = .idle ∧ isHeader i = true ∧ encode i = .link h ∧
      HeaderHas h 0x31#16 0x20#16 0x0F#8 3 ∧ s.rxq = h ++ [] ∧ sumNat h ≠ 0 :=
  ⟨by decide, by decide, by decide, by decide, by decide,
    ⟨_, _, _, .inl ⟨by decide, by decide, _, _, _, rfl, by decide, by decide, by decide⟩⟩, by decide, by decide⟩
theorem witness_HeaderFrameAckedOrNaked_i8s16 :
    let h := [0x01#8, 0x02#8, 0x31#8, 0x20#8, 0x10#8, 0xFF#8, 0xFF#8, 0x9E#8]
    let i := Instr.headerI8S16 0#5 false 0x31#8 0x20#8 0x10#8 0xFFFF#16 0x9E#8
    let s := parserAt .idle [] h
    s.alive = true ∧ s.busy = false ∧ s.rxs = .idle ∧ isHeader i = true ∧ encode i = .link h ∧
      HeaderHas h 0x31#16 0x20#16 0x10#8 65535 ∧ s.rxq = h ++ [] :=
  ⟨by decide, by decide, by decide, by decide, by decide,
    ⟨_, _, _, .inr (.inl ⟨by decide, by decide, _, _, _, _, rfl, by decide, by decide, by decide⟩)⟩, by decide⟩
theorem witness_HeaderFrameAckedOrNaked_i16s8 :
    let h := [0x01#8, 0x04#8, 0x01#8, 0x31#8, 0x00#8, 0x20#8, 0x80#8, 0x01#8, 0x28#8]
    let i := Instr.headerI16S8 0#5 false 0x0131#16 0x0020#16 0x80#8 0x01#8 0x28#8
    let s := parserAt .idle [] h
    s.alive = true ∧ s.busy = false ∧ s.rxs = .idle ∧ isHeader i = true ∧ encode i = .link h ∧
      HeaderHas h 0x0131#16 0x20#16 0x80#8 1 ∧ s.rxq = h ++ [] :=
  ⟨by decide, by decide, by decide, by decide, by decide,
    ⟨_, _, _, .inr (.inr (.inl ⟨by decide, by decide, _, _, _, _, _, rfl, by decide, by decide, by decide⟩))⟩, by decide⟩
theorem witness_HeaderFrameAckedOrNaked_i16s16 :
    let h := [0x01#8, 0x06#8, 0x01#8, 0x31#8, 0x00#8, 0x20#8, 0x80#8, 0x01#8, 0x2B#8, 0xFB#8]
    let i := Instr.headerI16S16 0#5 false 0x0131#16 0x0020#16 0x80#8 299#16 0xFB#8
    let s := parserAt .idle [] h
    s.alive = true ∧ s.busy = false ∧ s.rxs = .idle ∧ isHeader i = true ∧ encode i = .link h ∧
      HeaderHas h 0x0131#16 0x20#16 0x80#8 299 ∧ s.rxq = h ++ [] :=
  ⟨by decide, by decide, by decide, by decide, by decide,
    ⟨_, _, _, .inr (.inr (.inr ⟨by decide, by decide, _, _, _, _, _, _, rfl, by decide, by decide, by decide⟩))⟩, by decide⟩
theorem witness_EveryHeaderHasFields :
    isHeader (.headerI8S8 0#5 true 0xFF#8 0xFF#8 0xFF#8 0xFF#8 0x03#8) = true ∧
      encode (.headerI8S8 0#5 true 0xFF#8 0xFF#8 0xFF#8 0xFF#8 0x03#8) =
        .link [0x01#8, 0x01#8, 0xFF#8, 0xFF#8, 0xFF#8, 0xFF#8, 0x03#8] := by decide
/-- `DataFrameAckedOrNaked`: accepted, and NAKed. -/
theorem witness_DataFrameAckedOrNaked_acked :
    let s := underHeader latV25 .headerComplete [] frameD
    s.alive = true ∧ s.busy = false ∧ s.rxs = .headerComplete ∧ s.latches = some latV25 ∧
      [0x00#8].length = latV25.size.toNat ∧ latV25.size.toNat ≤ 65536 ∧
      s.rxq = [0x02#8] ++ [0x00#8] ++ [0x03#8, 0xFB#8] ++ [] ∧
      sumNat ([0x02#8] ++ [0x00#8] ++ [0x03#8, 0xFB#8]) = 0 := by decide
theorem witness_DataFrameAckedOrNaked_naked :
    let s := underHeader latV25 .headerComplete [] [0x02#8, 0x00#8, 0x03#8, 0xFC#8]
    s.alive = true ∧ s.busy = false ∧ s.rxs = .headerComplete ∧ s.latches = some latV25 ∧
      [0x00#8].length = latV25.size.toNat ∧ latV25.size.toNat ≤ 65536 ∧
      s.rxq = [0x02#8] ++ [0x00#8] ++ [0x03#8, 0xFC#8] ++ [] ∧
      sumNat ([0x02#8] ++ [0x00#8] ++ [0x03#8, 0xFC#8]) ≠ 0 := by decide
/-- `FrameTurnIsItsByteTurns`: V1. -/
theorem witness_FrameTurnIsItsByteTurns :
    let s := parserAt .idle [] [0x31#8, 0x31#8, 0x20#8, 0x05#8]
    s.canConsume = true ∧
      decode s.consumer (s.latches.map fun l => l.size.toNat) .frame (.link s.rxq) =
        .instr (.select 0x31#8 0x20#8 0x05#8) ∧
      encode (.select 0x31#8 0x20#8 0x05#8) = .link [0x31#8, 0x31#8, 0x20#8, 0x05#8] ∧
      ∃ t, Sys2Proof.core.run [0x31#8, 0x31#8, 0x20#8, 0x05#8].length
        { s with script := List.replicate [0x31#8, 0x31#8, 0x20#8, 0x05#8].length (.receive .event) ++ [] } = .next t :=
  ⟨by decide, by decide, by decide, _, rfl⟩
/-- `FrameTurnStopsWithItsBytes`: a whole frame, and one cut short by the end of a SEND (round 4, R182). -/
theorem witness_FrameTurnStopsWithItsBytes_whole :
    let s := parserAt .idle [] [0x31#8, 0x31#8, 0x20#8, 0x05#8]
    decode s.consumer (s.latches.map fun l => l.size.toNat) .frame (.link s.rxq) =
        .instr (.select 0x31#8 0x20#8 0x05#8) ∧
      encode (.select 0x31#8 0x20#8 0x05#8) = .link [0x31#8, 0x31#8, 0x20#8, 0x05#8] ∧
      ∃ t, step { s with script := .receive .frame :: [] } = .next t := ⟨by decide, by decide, _, rfl⟩
theorem witness_FrameTurnStopsWithItsBytes_cut :
    let s := sendingAt .txHdrWait 4#3 [0x31#8, 0x31#8, 0x20#8, 0x05#8]
    decode s.consumer (s.latches.map fun l => l.size.toNat) .frame (.link s.rxq) =
        .instr (.select 0x31#8 0x20#8 0x05#8) ∧
      encode (.select 0x31#8 0x20#8 0x05#8) = .link [0x31#8, 0x31#8, 0x20#8, 0x05#8] ∧
      ∃ t, step { s with script := .receive .frame :: [] } = .next t ∧ t.canConsume = false ∧
        t.rxq = [0x31#8, 0x20#8, 0x05#8] := ⟨by decide, by decide, _, rfl, by decide, by decide⟩

/-! ### The whole machine -/

/-- `StepKeepsInvariant` and `InvariantExcludesStops`: a step from `Idle`. -/
theorem witness_StepKeepsInvariant :
    (scripted (parserAt .idle [] [0x31#8]) []).Inv ∧
      ∃ t, step (scripted (parserAt .idle [] [0x31#8]) []) = .next t := ⟨inv_idle _ _, _, rfl⟩
theorem witness_InvariantExcludesStops : (sendingAt .txDataWait 4#3 [0x15#8]).Inv := inv_sending _
theorem witness_RegistryConstant : ∃ t, step (scripted (parserAt .idle [] []) [.command .reset]) = .next t := ⟨_, rfl⟩
/-- `LatchWriters`: each case. -/
theorem witness_LatchWriters_kept :
    isEvent .cmdDone = true ∧ ∃ t, exec .cmdDone (windowAt []) = .next t := ⟨by decide, _, rfl⟩
theorem witness_LatchWriters_header :
    isEvent (.rxHeaderByte 0x9C#8) = true ∧ ∃ t, exec (.rxHeaderByte 0x9C#8) (parserAt .header bodyV20 [0x9C#8]) = .next t :=
  ⟨by decide, _, rfl⟩
theorem witness_LatchWriters_reset :
    isEvent .envReset = true ∧ ∃ t, exec .envReset (windowAt []) = .next t := ⟨by decide, _, rfl⟩
/-- `FlagWriters`: each flag's writers. -/
theorem witness_FlagWriters_dispatch :
    isEvent .rxAeEot = true ∧ ∃ t, exec .rxAeEot (underHeader latV25 .awaitingEnd frameD [0x04#8]) = .next t :=
  ⟨by decide, _, rfl⟩
theorem witness_FlagWriters_linkFail :
    isEvent .envLinkFail = true ∧ ∃ t, exec .envLinkFail (sendingAt .txHdrWait 1#3 []) = .next t := ⟨by decide, _, rfl⟩
theorem witness_FlagWriters_fail :
    isEvent .txTimeout = true ∧ ∃ t, exec .txTimeout (sendingAt .txHdrWait 4#3 []) = .next t := ⟨by decide, _, rfl⟩
theorem witness_FlagWriters_ok :
    isEvent .txDataAck = true ∧ ∃ t, exec .txDataAck (sendingAt .txDataWait 4#3 [0x06#8]) = .next t := ⟨by decide, _, rfl⟩
theorem witness_OnlyEotDispatches :
    isEvent .rxAeEot = true ∧ ∃ t, exec .rxAeEot (underHeader latV25 .awaitingEnd frameD [0x04#8]) = .next t :=
  ⟨by decide, _, rfl⟩
/-- `SendFreezesParser`: an event, and a frame that the sender's wait consumes byte by byte. -/
theorem witness_SendFreezesParser_event :
    let s := sendingAt .txHdrWait 1#3 [0x31#8]
    s.busy = true ∧ s.txs ≠ .txIdle ∧ Instr.txHdrOther 0x31#8 ≠ .envReset ∧ ∃ t, exec (.txHdrOther 0x31#8) s = .next t :=
  ⟨by decide, by decide, by decide, _, rfl⟩
theorem witness_SendFreezesParser_frame :
    let s := sendingAt .txHdrWait 1#3 [0x31#8, 0x31#8, 0x20#8, 0x05#8]
    s.busy = true ∧ s.txs ≠ .txIdle ∧ Instr.select 0x31#8 0x20#8 0x05#8 ≠ .envReset ∧
      ∃ t, exec (.select 0x31#8 0x20#8 0x05#8) s = .next t := ⟨by decide, by decide, by decide, _, rfl⟩
theorem witness_StreamsInOrder :
    ∃ t, exec (.cmdSend 0x20#16 0x31#16 0x0F#8 1#17 [0#8]) (windowAt [0x04#8]) = .next t := ⟨_, rfl⟩
/-- `AppendChangesOneByte`: each of the three events. -/
theorem witness_AppendChangesOneByte_select :
    let s := parserAt .select [0x31#8] [0x31#8]
    s.buf.wf ∧ ∃ t, exec (.rxSelectByte 0x31#8) s = .next t ∧ t.rxs = s.rxs := ⟨by decide, _, rfl, rfl⟩
theorem witness_AppendChangesOneByte_header :
    let s := parserAt .header [0x01#8] [0x00#8]
    s.buf.wf ∧ ∃ t, exec (.rxHeaderByte 0x00#8) s = .next t ∧ t.rxs = s.rxs := ⟨by decide, _, rfl, rfl⟩
theorem witness_AppendChangesOneByte_data :
    let s := underHeader latV25 .data [0x02#8] [0x00#8]
    s.buf.wf ∧ ∃ t, exec (.rxDataByte 0x00#8) s = .next t ∧ t.rxs = s.rxs := ⟨by decide, _, rfl, rfl⟩
theorem witness_SentBytesRecorded :
    let s := { underHeader latV25 .awaitingEnd frameD [0x05#8] with mon := [(.rx, 0x04#8), (.tx, 0x06#8)], txOut := [0x06#8] }
    sentBytes s.mon = s.txOut ∧ ∃ t, step s = .next t := ⟨by decide, _, rfl⟩
theorem witness_DeadUntilReset :
    let s := scripted { windowAt [0x04#8] with alive := false } [.command .reset]
    s.alive = false ∧ ∃ t, step s = .next t := ⟨by decide, _, rfl⟩
theorem witness_QuiescentHasNoStep :
    (underHeader latV20 .headerComplete [] []).quiescent = true ∧ (underHeader latV20 .headerComplete [] []).script = [] := by
  decide

end Sys2Proof.Tests
end

section
/-! PROOFS of the statements of 00_scope.md: a step runs what the decoder reads (R10), and a frame as one turn is its
bytes as single events (log 2). First what the decoder reads as a frame, then what a turn of the script does, then runs
of event turns against `consumeSeq`. -/

namespace Sys2Proof.Scope

open Sys2Proof.Machine

/-! ### What the decoder reads as a frame is the front of the bytes (R70, R72 to R76) -/

@[simp] theorem hiByte_be16 (hi lo : Byte) : hiByte (be16 hi lo) = hi := BitVec.extractLsb'_append_eq_left

@[simp] theorem loByte_be16 (hi lo : Byte) : loByte (be16 hi lo) = lo := BitVec.extractLsb'_append_eq_right

/-- The four fields of `fmt` are the whole byte (R74). -/
theorem fmtByte_fields (fmt : Byte) : fmtByte (fmtRsv fmt) (fmtI16 fmt) (fmtS16 fmt) (fmtDir fmt) = fmt := by
  refine BitVec.eq_of_getLsbD_eq fun k hk => ?_
  change (fmtRsv fmt ++ BitVec.ofBool (fmtI16 fmt) ++ BitVec.ofBool (fmtS16 fmt) ++
    BitVec.ofBool (fmtDir fmt)).getLsbD k = fmt.getLsbD k
  simp only [BitVec.getLsbD_append]
  interval_cases k <;> simp [fmtRsv, fmtI16, fmtS16, fmtDir]

/-- The instruction is a well-formed frame whose encoding is the front of these bytes. -/
def FrontIsFrame (bs : List Byte) (i : Instr) : Prop :=
  i.wf = true ∧ grainOf i = .frame ∧ ∃ front rest, encode i = .link front ∧ bs = front ++ rest

theorem frontIsFrame_of_decodeHeader {rest : List Byte} {i : Instr} (h : decodeHeader rest = .instr i) :
    FrontIsFrame (SOH :: rest) i := by
  unfold decodeHeader at h
  split at h
  · cases h
  · next fmt fields =>
    have hfmt := fmtByte_fields fmt
    split at h
    · next d s n z c tail hi hs =>
      cases h
      rw [hi, hs] at hfmt
      exact ⟨rfl, rfl, _, tail, rfl, by simp [hfmt]⟩
    · next d s n z1 z0 c tail hi hs =>
      cases h
      rw [hi, hs] at hfmt
      exact ⟨rfl, rfl, _, tail, rfl, by simp [hfmt]⟩
    · next d1 d0 s1 s0 n z c tail hi hs =>
      cases h
      rw [hi, hs] at hfmt
      exact ⟨rfl, rfl, _, tail, rfl, by simp [hfmt]⟩
    · next d1 d0 s1 s0 n z1 z0 c tail hi hs =>
      cases h
      rw [hi, hs] at hfmt
      exact ⟨rfl, rfl, _, tail, rfl, by simp [hfmt]⟩
    · cases h

theorem frontIsFrame_of_decodeData {n : Nat} {rest : List Byte} {i : Instr} (h : decodeData n rest = .instr i) :
    FrontIsFrame (STX :: rest) i := by
  unfold decodeData at h
  split at h
  · cases h
  · next hn =>
    split at h
    · next e c tail hdrop =>
      cases h
      have hbytes : rest = rest.take n ++ e :: c :: tail := by rw [← hdrop, List.take_append_drop]
      have hlen : n < rest.length := by
        have := congrArg List.length hdrop
        simp only [List.length_drop, List.length_cons] at this
        omega
      refine ⟨?_, rfl, _, tail, rfl, ?_⟩
      · simp only [Instr.wf, List.length_take, Bool.and_eq_true, decide_eq_true_eq]
        omega
      · simpa using hbytes
    · cases h

/-- A frame is opened by its marker: a Select frame, a header, or a data frame of the declared size (R70). -/
theorem frontIsFrame_of_decodeFrame {declared : Option Nat} {bs : List Byte} {i : Instr}
    (h : decodeFrame declared bs = .instr i) : FrontIsFrame bs i := by
  unfold decodeFrame at h
  split at h
  · cases h
  · next m rest =>
    split at h
    · next hm =>
      subst hm
      split at h
      · next d s t tail =>
        cases h
        exact ⟨rfl, rfl, _, tail, rfl, rfl⟩
      · cases h
    · split at h
      · next hm =>
        subst hm
        exact frontIsFrame_of_decodeHeader h
      · split at h
        · next hm =>
          subst hm
          split at h
          · cases h
          · exact frontIsFrame_of_decodeData h
        · cases h

theorem frontIsFrame_of_decode {c : Consumer} {declared : Option Nat} {bs : List Byte} {i : Instr}
    (h : decode c declared .frame (.link bs) = .instr i) : FrontIsFrame bs i := by
  cases bs with
  | nil => cases h
  | cons b rest => exact frontIsFrame_of_decodeFrame h

/-- A frame's meaning is its encoding, byte by byte (log 2). -/
theorem exec_frame {i : Instr} {bs : List Byte} (hg : grainOf i = .frame) (he : encode i = .link bs) (s : State) :
    exec i s = consumeFrame bs s := by
  cases i <;> cases hg <;> cases he <;> rfl

theorem encode_frame_ne_nil {i : Instr} {bs : List Byte} (hg : grainOf i = .frame) (he : encode i = .link bs) :
    bs ≠ [] := by
  cases i <;> cases hg <;> cases he <;> simp

/-! ### A turn of the script (R20, R43; log 1) -/

theorem step_of_script {s : State} {u : Turn} {sc : List Turn} (h : s.script = u :: sc) :
    step s = (s.withScript sc).turn u := by
  unfold step
  rw [h]
  rfl

theorem step_of_emptyScript {s : State} (h : s.script = []) : step s = s.turn (.receive .event) := by
  unfold step
  rw [h]

/-- The framer fetches an instruction where somebody consumes and the decoder reads one (R43, R89). -/
theorem fetch_eq_instr_iff {s : State} {g : Grain} {i : Instr} :
    s.fetch g = .instr i ↔
      s.canConsume = true ∧ decode s.consumer s.declaredSize g (.link s.rxq) = .instr i := by
  unfold State.fetch
  cases s.canConsume with
  | true => simp
  | false => by_cases hq : s.rxq = [] <;> simp [hq]

theorem turn_receive_of_fetch {s : State} {g : Grain} {i : Instr} (h : s.fetch g = .instr i) :
    s.turn (.receive g) = exec i s := by
  simp only [State.turn, h]

/-- A framer's turn has a step only where somebody consumes (R43). -/
theorem canConsume_of_turn_receive {s t : State} {g : Grain} (h : s.turn (.receive g) = .next t) :
    s.canConsume = true := by
  simp only [State.turn] at h
  split at h
  · next i hf => exact (fetch_eq_instr_iff.1 hf).1
  · cases h

/-- A frame turn consumes the frame's bytes in order (log 2). -/
theorem step_frameTurn {s : State} {i : Instr} {bs : List Byte} (sc : List Turn) (hc : s.canConsume = true)
    (hd : decode s.consumer s.declaredSize .frame (.link s.rxq) = .instr i) (he : encode i = .link bs) :
    step (s.withScript (.receive .frame :: sc)) = consumeSeq bs (s.withScript sc) := by
  obtain ⟨-, hg, front, rest, hfront, hq⟩ := frontIsFrame_of_decode hd
  obtain rfl : front = bs := by simpa [hfront] using he
  have hfetch : (s.withScript sc).fetch .frame = .instr i := fetch_eq_instr_iff.2 ⟨hc, hd⟩
  calc step (s.withScript (.receive .frame :: sc))
      = (s.withScript sc).turn (.receive .frame) := step_of_script rfl
    _ = consumeFrame front (s.withScript sc) := by rw [turn_receive_of_fetch hfetch, exec_frame hg he]
    _ = consumeSeq front (s.withScript sc) := if_pos ⟨hc, rest, hq.symm⟩

/-! ### Runs of event turns -/

/-- A script of `k` event turns of the framer, then other turns. -/
def eventTurns (k : Nat) (sc : List Turn) : List Turn := List.replicate k (.receive .event) ++ sc

theorem eventTurns_zero (sc : List Turn) : eventTurns 0 sc = sc := rfl

theorem eventTurns_succ (k : Nat) (sc : List Turn) : eventTurns (k + 1) sc = .receive .event :: eventTurns k sc := rfl

theorem onScript_eq_next {sc : List Turn} {r : Result} {u : State} (h : onScript sc r = .next u) :
    ∃ v, r = .next v ∧ u = v.withScript sc := by
  cases r with
  | next v => cases h; exact ⟨v, rfl, rfl⟩
  | fault f => cases h
  | refused e => cases h

/-- Where bytes at the head of `RXQ` run to a state one event turn each, they run to it as a sequence: an event turn that
has a step has a consumer, so the sequence does not stop early. -/
theorem consumeSeq_of_run_eventTurns {sc : List Turn} {t : State} (bs : List Byte) (s : State) (hq : bs <+: s.rxq)
    (h : Sys2Proof.core.run bs.length (s.withScript (eventTurns bs.length sc)) = .next t) :
    consumeSeq bs (s.withScript sc) = .next t := by
  induction bs generalizing s with
  | nil => exact h
  | cons b bs ih =>
    obtain ⟨rest, hrest⟩ := hq
    obtain ⟨u, hstep, hrun⟩ := run_succ_next h
    rw [List.length_cons, eventTurns_succ] at hstep
    cases hc : s.canConsume with
    | false =>
      obtain ⟨why, hno⟩ := step_eventTurn_noConsumer (eventTurns bs.length sc) hc
      rw [hno] at hstep
      cases hstep
    | true =>
      rw [step_eventTurn _ hc hrest.symm] at hstep
      obtain ⟨v, hv, rfl⟩ := onScript_eq_next hstep
      have hvq : bs <+: v.rxq := ⟨rest, by simpa [← hrest] using consumeByte_head hv⟩
      have hbyte : consumeByte b (s.withScript sc) = .next (v.withScript sc) := by
        rw [consumeByte_withScript, hv, onScript_next]
      rw [consumeSeq_step bs (by simpa using hc) hbyte]
      exact ih v hvq hrun

/-- Where a sequence of bytes runs to a state, some first part of it runs to that state one event turn each, and it is
the whole sequence unless nobody consumes in that state (R43). -/
theorem run_eventTurns_of_consumeSeq {sc : List Turn} {t : State} (bs : List Byte) (s : State)
    (h : consumeSeq bs (s.withScript sc) = .next t) :
    ∃ k ≤ bs.length, (k = bs.length ∨ t.canConsume = false) ∧
      Sys2Proof.core.run k (s.withScript (eventTurns k sc)) = .next t := by
  induction bs generalizing s with
  | nil => exact ⟨0, le_rfl, .inl rfl, h⟩
  | cons b bs ih =>
    obtain ⟨hc, hstop⟩ | ⟨hc, hgo⟩ := consumeSeq_cons b bs (s.withScript sc)
    · rw [hstop] at h
      cases h
      exact ⟨0, Nat.zero_le _, .inr hc, rfl⟩
    · rw [withScript_canConsume] at hc
      obtain ⟨u, hbyte, hseq⟩ := (hgo t).1 h
      rw [consumeByte_withScript] at hbyte
      obtain ⟨v, hv, rfl⟩ := onScript_eq_next hbyte
      obtain ⟨k, hk, hend, hrun⟩ := ih v hseq
      refine ⟨k + 1, Nat.succ_le_succ hk, hend.imp_left (congrArg Nat.succ), ?_⟩
      have hstep : step (s.withScript (eventTurns (k + 1) sc)) = .next (v.withScript (eventTurns k sc)) := by
        rw [eventTurns_succ, step_eventTurn _ hc (consumeByte_head hv), hv, onScript_next]
      rw [run_succ hstep, hrun]

/-! ### The statements -/

/-- Settles O41: the event turns run the frame's bytes as a sequence, and so does the frame turn. -/
theorem frameTurnIsItsByteTurns : Obligations.FrameTurnIsItsByteTurns := by
  intro s t i bs sc hc hd he hrun
  obtain ⟨-, -, front, rest, hfront, hq⟩ := frontIsFrame_of_decode hd
  obtain rfl : front = bs := by simpa [hfront] using he
  calc step (s.withScript (.receive .frame :: sc))
      = consumeSeq front (s.withScript sc) := step_frameTurn sc hc hd he
    _ = .next t := consumeSeq_of_run_eventTurns front s ⟨rest, hq.symm⟩ hrun

/-- Settles O56: the frame turn runs the frame's bytes as a sequence, and a first part of them runs alike as event turns;
it is not empty because the framer's turn had a consumer. -/
theorem frameTurnStopsWithItsBytes : Obligations.FrameTurnStopsWithItsBytes := by
  intro s t i bs sc hd he hstep
  obtain ⟨-, hg, -⟩ := frontIsFrame_of_decode hd
  change step (s.withScript (.receive .frame :: sc)) = .next t at hstep
  have hturn : (s.withScript sc).turn (.receive .frame) = .next t :=
    (step_of_script (withScript_script s (.receive .frame :: sc))).symm.trans hstep
  have hc : (s.withScript sc).canConsume = true := canConsume_of_turn_receive hturn
  rw [withScript_canConsume] at hc
  rw [step_frameTurn sc hc hd he] at hstep
  obtain ⟨k, hk, hend, hrun⟩ := run_eventTurns_of_consumeSeq bs s hstep
  refine ⟨k, Nat.one_le_iff_ne_zero.2 ?_, hk, hend, hrun⟩
  rintro rfl
  cases hrun
  obtain hlen | hno := hend
  · exact encode_frame_ne_nil hg he (List.eq_nil_of_length_eq_zero hlen.symm)
  · exact Bool.false_ne_true (hno.symm.trans hc)

/-- Settles O6: the script's next turn picks the clause, and the framer's turn runs what it fetches. -/
theorem stepRunsDecoded : Obligations.StepRunsDecoded := by
  refine ⟨fun s g sc i hs hc hd => ?framer, fun s i hs hc hd => ?noTurn,
    fun s sc dest src fnc size bytes => ?command, fun s b sc hs ha => ?master⟩
  case framer =>
    have hfetch : (s.withScript sc).fetch g = .instr i := fetch_eq_instr_iff.2 ⟨hc, hd⟩
    exact (step_of_script hs).trans (turn_receive_of_fetch hfetch)
  case noTurn => exact (step_of_emptyScript hs).trans (turn_receive_of_fetch (fetch_eq_instr_iff.2 ⟨hc, hd⟩))
  case command => exact ⟨step_of_script, step_of_script, step_of_script, step_of_script, step_of_script⟩
  case master => exact (step_of_script hs).trans (if_pos ha)

end Sys2Proof.Scope
end

section
/-! PROOFS of the statements of 10_state.md: who writes the latches and the flags (R23, R28 to R30), and that no rule reads
the traces (R35). The writers are read off one lemma that says what each event does with these fields; for the traces,
every operation that a rule is put together from is shown not to read them. -/

namespace Sys2Proof.StateRules

open Sys2Proof.Machine Sys2Proof.Stmt Sys2Proof.Scope

/-! ### The latches and the flags: what each event writes (R23, R28 to R30) -/

/-- The header latches and the three flags. -/
structure Control where
  latches : Option HeaderLatch
  busy : Bool
  alive : Bool
  txStatus : TxStatus

/-- The latches and the flags of a state. -/
def control (s : State) : Control := ⟨s.latches, s.busy, s.alive, s.txStatus⟩

/-- What an event that leads from `s` to `t` does with the latches and the flags: nothing, or one of the writes that a
rule of files 41 to 43, 60 and 70 names. -/
inductive ControlWrite (s t : State) : Instr → Prop
  | kept {i : Instr} (h : control t = control s) : ControlWrite s t i
  | header {b : Byte} {l : HeaderLatch} (h : control t = { control s with latches := some l }) :
      ControlWrite s t (.rxHeaderByte b)
  | dispatched (h : control t = { control s with busy := true }) : ControlWrite s t .rxAeEot
  | done (h : control t = { control s with busy := false }) : ControlWrite s t .cmdDone
  | sendOk (h : control t = { control s with txStatus := .ok }) : ControlWrite s t .txDataAck
  | sendFailed {i : Instr} (hi : (∃ b, i = .txHdrOther b ∨ i = .txDataOther b) ∨ i = .txTimeout)
      (h : control t = { control s with txStatus := .fail }) (htxs : t.txs = .txIdle) : ControlWrite s t i
  | linkFailed (h : control t = { control s with alive := false }) : ControlWrite s t .envLinkFail
  | linkFailedInSend (h : control t = { control s with alive := false, txStatus := .fail }) (htxs : t.txs = .txIdle) :
      ControlWrite s t .envLinkFail
  | reset (h : control t = ⟨none, false, true, .none⟩) : ControlWrite s t .envReset

/-- A round without an ACK keeps the latches and the flags, or is the one in which the SEND fails (R181, R182). `s'` is the
state before `take()` and the report. -/
theorem controlWrite_of_retryOrFail {i : Instr} {s s' : State} (unit : List Byte)
    (hi : (∃ b, i = .txHdrOther b ∨ i = .txDataOther b) ∨ i = .txTimeout) (hs : control s = control s') :
    ControlWrite s' (s.retryOrFail unit) i := by
  obtain ⟨-, e⟩ | ⟨-, e⟩ := retryOrFail_cases s unit
  · rw [e]
    exact .kept hs
  · rw [e]
    exact .sendFailed hi (congrArg (fun c : Control => { c with txStatus := .fail }) hs) rfl

theorem control_noteAnswer (s : State) (b : Byte) : control (s.noteAnswer b) = control s := by
  obtain ⟨r, e⟩ := noteAnswer_eq s b
  rw [e]
  rfl

/-- Each event writes the latches and the flags as its rule says, and no event otherwise. -/
theorem controlWrite_of_exec {i : Instr} {s t : State} (hi : isEvent i = true) (h : exec i s = .next t) :
    ControlWrite s t i := by
  cases i with
  | rxIdleSel => obtain ⟨rest, -, rfl⟩ := execRxIdleSel_next h; exact .kept rfl
  | rxIdleSoh => obtain ⟨rest, -, rfl⟩ := execRxIdleSoh_next h; exact .kept rfl
  | rxIdleOther b => obtain ⟨rest, -, rfl⟩ := execRxIdleOther_next h; exact .kept rfl
  | rxSelectByte b =>
    obtain ⟨rest, -, -, ⟨-, rfl⟩ | ⟨-, _, -, ⟨-, rfl⟩ | ⟨-, rfl⟩⟩⟩ := execRxSelectByte_next h
    · exact .kept rfl
    · exact .kept rfl
    · exact .kept rfl
  | rxHeaderByte b =>
    obtain ⟨rest, -, -, ⟨rfl, -⟩ | ⟨_, -, -, ⟨-, l, -, rfl⟩ | ⟨-, rfl⟩⟩⟩ := execRxHeaderByte_next h
    · exact .kept rfl
    · exact .header rfl
    · exact .kept rfl
  | rxHcStx => obtain ⟨rest, -, rfl⟩ := execRxHcStx_next h; exact .kept rfl
  | rxHcOther b => obtain ⟨rest, -, rfl⟩ := execRxHcOther_next h; exact .kept rfl
  | rxDataByte b =>
    obtain ⟨rest, _, -, -, -, ⟨-, rfl⟩ | ⟨-, ⟨-, rfl⟩ | ⟨-, rfl⟩⟩⟩ := execRxDataByte_next h
    · exact .kept rfl
    · exact .kept rfl
    · exact .kept rfl
  | rxAeEnq => obtain ⟨rest, -, rfl⟩ := execRxAeEnq_next h; exact .kept rfl
  | rxAeEot =>
    obtain ⟨rest, l, payload, -, -, -, rfl⟩ := execRxAeEot_next h
    obtain ⟨-, e⟩ | ⟨-, e⟩ := dispatch_cases ((s.taken EOT rest).closeFrame .headerComplete) l payload
    · rw [e]
      exact .dispatched rfl
    · rw [e]
      exact .kept rfl
  | rxAeOther b => obtain ⟨rest, -, rfl⟩ := execRxAeOther_next h; exact .kept rfl
  | cmdDone => obtain ⟨-, -, -, rfl⟩ := execCmdDone_next h; exact .done rfl
  | cmdSend => obtain ⟨-, -, -, -, -, -, rfl⟩ := execCmdSend_next h; exact .kept rfl
  | txHdrAck => obtain ⟨rest, -, rfl⟩ := execTxHdrAck_next h; exact .kept rfl
  | txHdrOther b =>
    obtain ⟨-, rest, -, rfl⟩ := execTxHdrOther_next h
    exact controlWrite_of_retryOrFail _ (.inl ⟨b, .inl rfl⟩) (control_noteAnswer (s.taken b rest) b)
  | txTimeout =>
    obtain ⟨-, -, ⟨-, rfl⟩ | ⟨-, rfl⟩⟩ := execTxTimeout_next h
    · exact controlWrite_of_retryOrFail _ (.inr rfl) rfl
    · exact controlWrite_of_retryOrFail _ (.inr rfl) rfl
  | txDataAck => obtain ⟨rest, -, rfl⟩ := execTxDataAck_next h; exact .sendOk rfl
  | txDataOther b =>
    obtain ⟨-, rest, -, rfl⟩ := execTxDataOther_next h
    exact controlWrite_of_retryOrFail _ (.inl ⟨b, .inr rfl⟩) (control_noteAnswer (s.taken b rest) b)
  | envLinkFail =>
    obtain ⟨-, rfl⟩ := execEnvLinkFail_next h
    obtain ⟨-, e⟩ | ⟨-, e⟩ := die_cases s
    · rw [e]
      exact .linkFailed rfl
    · rw [e]
      exact .linkFailedInSend rfl rfl
  | envReset => cases h; exact .reset rfl
  | _ => simp [isEvent, grainOf] at hi

/-- Settles O46: of the writes an event can make, only a header byte's and RESET's touch the latches. -/
theorem latchWriters : Obligations.LatchWriters := by
  intro i s t hi h
  cases controlWrite_of_exec hi h with
  | header => exact .inr (.inl ⟨_, rfl⟩)
  | reset => exact .inr (.inr rfl)
  | kept hc | dispatched hc | done hc | sendOk hc | sendFailed _ hc | linkFailed hc | linkFailedInSend hc =>
    exact .inl (congrArg Control.latches hc)

/-- Settles O47: each flag is read off the write the event makes. -/
theorem flagWriters : Obligations.FlagWriters := by
  intro i s t hi h
  have hw := controlWrite_of_exec hi h
  refine ⟨?busy, ?alive, ?txStatus⟩
  case busy =>
    cases hw with
    | dispatched hc => exact .inr (.inl ⟨rfl, congrArg Control.busy hc⟩)
    | done hc => exact .inr (.inr ⟨.inl rfl, congrArg Control.busy hc⟩)
    | reset hc => exact .inr (.inr ⟨.inr rfl, congrArg Control.busy hc⟩)
    | kept hc | header hc | sendOk hc | sendFailed _ hc | linkFailed hc | linkFailedInSend hc =>
      exact .inl (congrArg Control.busy hc)
  case alive =>
    cases hw with
    | linkFailed hc | linkFailedInSend hc => exact .inr (.inl ⟨rfl, congrArg Control.alive hc⟩)
    | reset hc => exact .inr (.inr ⟨rfl, congrArg Control.alive hc⟩)
    | kept hc | header hc | dispatched hc | done hc | sendOk hc | sendFailed _ hc =>
      exact .inl (congrArg Control.alive hc)
  case txStatus =>
    cases hw with
    | sendOk hc => exact .inr (.inl ⟨rfl, congrArg Control.txStatus hc⟩)
    | sendFailed hi hc htxs =>
      exact .inr (.inr (.inl ⟨hi.imp_right .inl, congrArg Control.txStatus hc, htxs⟩))
    | linkFailedInSend hc htxs =>
      exact .inr (.inr (.inl ⟨.inr (.inr rfl), congrArg Control.txStatus hc, htxs⟩))
    | reset hc => exact .inr (.inr (.inr ⟨rfl, congrArg Control.txStatus hc⟩))
    | kept hc | header hc | dispatched hc | done hc | linkFailed hc =>
      exact .inl (congrArg Control.txStatus hc)

/-! ### The traces are not read (R35, R186) -/

/-- The state with other traces. -/
def withTraces (s : State) (m : List (Dir × Byte)) (d : List Report) : State := { s with mon := m, diag := d }

/-- What does not depend on the traces of the state it is computed from. -/
def TraceFree {α : Type} (f : State → α) : Prop := ∀ s m d, f (withTraces s m d) = f s

/-- An update of the state that may write the traces and does not read them. -/
def UpdateBlind (f : State → State) : Prop := TraceFree fun s => (f s).withoutTraces

/-- A rule that does not read the traces: whatever they hold, it stops alike or goes on alike. -/
def TraceBlind (k : State → Result) : Prop := TraceFree fun s => mapNext State.withoutTraces (k s)

/-- States that differ in the traces only are one state with two contents of them. -/
theorem eq_withTraces {s u : State} (h : s.withoutTraces = u.withoutTraces) : s = withTraces u s.mon s.diag :=
  congrArg (fun v => withTraces v s.mon s.diag) (a₁ := s.withoutTraces) (a₂ := u.withoutTraces) h

/-! #### The operations that the rules are put together from -/

/-- What is computed from the state without the traces is as good as a constant. -/
theorem TraceFree.read {α β : Type} {f : State → α} {g : α → State → β} (hf : TraceFree f)
    (hg : ∀ x, TraceFree (g x)) : TraceFree fun s => g (f s) s := by
  intro s m d
  change g (f (withTraces s m d)) (withTraces s m d) = g (f s) s
  rw [hf s m d]
  exact hg (f s) s m d

/-- A test that does not read the traces picks the same branch. `obs` is what is seen of the branches. That the tests of the
rules, and what they read of `BUF` and the latches, do not depend on the traces holds by unfolding. -/
theorem TraceFree.ite {α β : Type} (obs : α → β) {p : State → Prop} [DecidablePred p] {f g : State → α}
    (hf : TraceFree fun s => obs (f s)) (hg : TraceFree fun s => obs (g s))
    (hp : TraceFree p := by exact fun _ _ _ => rfl) : TraceFree fun s => obs (if p s then f s else g s) := by
  intro s m d
  by_cases h : p s
  · have h' : p (withTraces s m d) := (hp s m d).symm ▸ h
    simpa only [h, h', if_true] using hf s m d
  · have h' : ¬ p (withTraces s m d) := (hp s m d).symm ▸ h
    simpa only [h, h', if_false] using hg s m d

theorem UpdateBlind.comp {f g : State → State} (hg : UpdateBlind g) (hf : UpdateBlind f) :
    UpdateBlind fun s => g (f s) := by
  intro s m d
  change (g (f (withTraces s m d))).withoutTraces = (g (f s)).withoutTraces
  rw [eq_withTraces (hf s m d)]
  exact hg (f s) _ _

theorem traceBlind_next {f : State → State} (hf : UpdateBlind f) : TraceBlind fun s => .next (f s) :=
  fun s m d => congrArg Host.Outcome.next (hf s m d)

theorem traceBlind_refused (r : Refusal) : TraceBlind fun _ => .refused r := fun _ _ _ => rfl

theorem traceBlind_ite {p : State → Prop} [DecidablePred p] {k k' : State → Result} (hk : TraceBlind k)
    (hk' : TraceBlind k') (hp : TraceFree p := by exact fun _ _ _ => rfl) :
    TraceBlind fun s => if p s then k s else k' s :=
  TraceFree.ite (mapNext State.withoutTraces) hk hk' hp

theorem updateBlind_ite {p : State → Prop} [DecidablePred p] {f g : State → State} (hf : UpdateBlind f)
    (hg : UpdateBlind g) (hp : TraceFree p := by exact fun _ _ _ => rfl) :
    UpdateBlind fun s => if p s then f s else g s :=
  TraceFree.ite State.withoutTraces hf hg hp

theorem rxEvent_disabled {r : RxState} {b : Byte} (k : State → Result) {s : State}
    (h : ¬ ∃ rest, TookByParser s r b rest) : rxEvent r b k s = .refused .notEnabled := by
  unfold rxEvent
  split
  · rfl
  · next c rest hq =>
    refine if_neg fun hc => h ?_
    obtain ⟨ha, hb, hr, rfl⟩ := hc
    exact ⟨rest, hq, ha, hb, hr⟩

theorem txEvent_disabled {p : TxState} {b : Byte} (k : State → Result) {s : State}
    (h : ¬ ∃ rest, TookBySender s p b rest) : txEvent p b k s = .refused .notEnabled := by
  unfold txEvent
  split
  · rfl
  · next c rest hq =>
    refine if_neg fun hc => h ?_
    obtain ⟨ha, ht, rfl⟩ := hc
    exact ⟨rest, hq, ha, ht⟩

/-- Whether a receive event is enabled does not depend on the traces, and `take()` writes `MON` without reading it (R100,
R217). -/
theorem traceBlind_rxEvent {r : RxState} {b : Byte} {k : State → Result} (hk : TraceBlind k) :
    TraceBlind (rxEvent r b k) := by
  intro s m d
  by_cases he : ∃ rest, TookByParser s r b rest
  · obtain ⟨rest, hq, ha, hb, hr⟩ := he
    simp only [rxEvent_enabled k ha hb hr hq, rxEvent_enabled (s := withTraces s m d) k ha hb hr hq]
    exact hk (s.taken b rest) _ d
  · simp only [rxEvent_disabled k he, rxEvent_disabled (s := withTraces s m d) k he]

theorem traceBlind_txEvent {p : TxState} {b : Byte} {k : State → Result} (hk : TraceBlind k) :
    TraceBlind (txEvent p b k) := by
  intro s m d
  by_cases he : ∃ rest, TookBySender s p b rest
  · obtain ⟨rest, hq, ha, ht⟩ := he
    simp only [txEvent_enabled k ha ht hq, txEvent_enabled (s := withTraces s m d) k ha ht hq]
    exact hk (s.taken b rest) _ d
  · simp only [txEvent_disabled k he, txEvent_disabled (s := withTraces s m d) k he]

theorem traceBlind_exceptBytes {l : List Byte} {b : Byte} {k : State → Result} (hk : TraceBlind k) :
    TraceBlind fun s => exceptBytes l b (k s) :=
  traceBlind_ite (p := fun _ => b ∈ l) (traceBlind_refused _) hk

theorem traceBlind_appendByte {b : Byte} {k : State → Result} (hk : TraceBlind k) : TraceBlind (appendByte b k) :=
  traceBlind_ite (p := fun s => s.buf.length < bufCap) (fun s => hk (s.setBuf (s.buf.append b))) (fun _ _ _ => rfl)

theorem traceBlind_withRead {α : Type} {o : State → Option α} {k : α → State → Result}
    (hk : ∀ x, TraceBlind (k x)) (ho : TraceFree o := by exact fun _ _ _ => rfl) :
    TraceBlind fun s => withRead (o s) fun x => k x s :=
  TraceFree.read (g := fun o s => mapNext State.withoutTraces (withRead o fun x => k x s)) ho fun o => by
    cases o with
    | none => exact fun _ _ _ => rfl
    | some x => exact hk x

theorem traceBlind_withLatch {k : HeaderLatch → State → Result} (hk : ∀ l, TraceBlind (k l)) :
    TraceBlind fun s => withLatch s fun l => k l s := by
  intro s m d
  cases hl : s.latches with
  | none => simp only [withLatch, withTraces, hl]
  | some l => simpa only [withLatch, withTraces, hl] using hk l s m d

theorem updateBlind_emit (b : Byte) : UpdateBlind fun s => s.emit b := fun _ _ _ => rfl

theorem updateBlind_openFrame (b : Byte) (r : RxState) : UpdateBlind fun s => s.openFrame b r := fun _ _ _ => rfl

theorem updateBlind_closeFrame (r : RxState) : UpdateBlind fun s => s.closeFrame r := fun _ _ _ => rfl

theorem updateBlind_sendData : UpdateBlind fun s => (s.emitSeq s.txDat).enterPhase .txDataWait := fun _ _ _ => rfl

theorem updateBlind_finishSend (r : TxStatus) : UpdateBlind fun s => s.finishSend r := fun _ _ _ => rfl

theorem updateBlind_die : UpdateBlind State.die :=
  updateBlind_ite (p := fun s => s.txs = .txIdle) (fun _ _ _ => rfl) (fun _ _ _ => rfl)

theorem updateBlind_raise (e : LinkError) : UpdateBlind fun s => s.raise e := by
  cases e with
  | linkFailure => exact updateBlind_die
  | _ => exact fun _ _ _ => rfl

theorem updateBlind_noteAnswer (b : Byte) : UpdateBlind fun s => s.noteAnswer b :=
  updateBlind_ite (p := fun _ => b = NAK ∨ b = EOT ∨ b = ETX) (fun _ _ _ => rfl) (fun _ _ _ => rfl)

theorem updateBlind_retryOrFail (unit : List Byte) : UpdateBlind fun s => s.retryOrFail unit :=
  updateBlind_ite (p := fun s => s.txRound < txRounds) (fun _ _ _ => rfl) (fun _ _ _ => rfl)

theorem updateBlind_dispatch (l : HeaderLatch) (payload : List Byte) : UpdateBlind fun s => s.dispatch l payload :=
  updateBlind_ite (p := fun s => s.registered l.did = true) (fun _ _ _ => rfl) (fun _ _ _ => rfl)

/-! #### The tests after an append -/

/-- The answer to a complete Select frame depends on the registry alone (R104). -/
theorem updateBlind_selectAnswer (slave : Byte) :
    UpdateBlind fun s => (if s.registered (zext16 slave) then s.emit ACK else s).closeFrame .idle :=
  (updateBlind_closeFrame .idle).comp
    (updateBlind_ite (p := fun s => s.registered (zext16 slave) = true) (fun _ _ _ => rfl) (fun _ _ _ => rfl))

theorem traceBlind_finishSelect : TraceBlind finishSelect :=
  traceBlind_withRead fun slave => traceBlind_next (updateBlind_selectAnswer slave)

theorem traceBlind_headerAccept : TraceBlind headerAccept :=
  traceBlind_withRead fun _ => traceBlind_next fun _ _ _ => rfl

/-- How long the frame is and whether it sums to zero is a matter of `BUF` (R120). -/
theorem traceBlind_headerCheck : TraceBlind headerCheck :=
  traceBlind_ite (p := fun s => s.buf.length < 2) (traceBlind_next fun _ _ _ => rfl) <|
    traceBlind_withRead fun fmt =>
      traceBlind_ite (p := fun s => s.buf.length = hdrLen fmt)
        (traceBlind_ite (p := fun s => sum8 s.buf.bytes = 0#8) traceBlind_headerAccept
          (traceBlind_next fun _ _ _ => rfl))
        (traceBlind_next fun _ _ _ => rfl)

/-- How long the frame is, how long it must be and whether it sums to zero is a matter of `BUF` and the latches (R142). -/
theorem traceBlind_dataCheck : TraceBlind dataCheck :=
  traceBlind_withLatch fun l =>
    traceBlind_ite (p := fun s => s.buf.length = l.size.toNat + 3)
      (traceBlind_ite (p := fun s => sum8 s.buf.bytes = 0#8) (traceBlind_next fun _ _ _ => rfl)
        (traceBlind_next fun _ _ _ => rfl))
      (traceBlind_next fun _ _ _ => rfl)

/-! #### The events, the bytes and the turns -/

/-- A round without an ACK: the report and the retry, of the unit `unit s`, do not read the traces (R177, R180, R181). -/
theorem traceBlind_noAnswer {note : State → State} {unit : State → List Byte} (hn : UpdateBlind note)
    (hu : TraceFree unit) : TraceBlind fun s => .next ((note s).retryOrFail (unit s)) :=
  TraceFree.read (g := fun u s => mapNext State.withoutTraces (.next ((note s).retryOrFail u))) hu fun u =>
    traceBlind_next ((updateBlind_retryOrFail u).comp hn)

theorem traceBlind_execTxTimeout : TraceBlind execTxTimeout := by
  refine traceBlind_ite (p := fun s => s.alive = true ∧ s.rxq = []) (fun s m d => ?_) (traceBlind_refused _)
  have hnote : UpdateBlind fun s => s.report .noAnswerTimeout := fun _ _ _ => rfl
  cases ht : s.txs with
  | txIdle => simp only [withTraces, ht]
  | txHdrWait =>
    simpa only [withTraces, ht] using traceBlind_noAnswer (unit := State.txHdr) hnote (fun _ _ _ => rfl) s m d
  | txDataWait =>
    simpa only [withTraces, ht] using traceBlind_noAnswer (unit := State.txDat) hnote (fun _ _ _ => rfl) s m d

theorem traceBlind_exec_event {i : Instr} (hi : grainOf i = .event) : TraceBlind (exec i) := by
  cases i with
  | rxIdleSel | rxIdleSoh | rxHcStx => exact traceBlind_rxEvent (traceBlind_next (updateBlind_openFrame _ _))
  | rxIdleOther b | rxHcOther b | rxAeOther b =>
    exact traceBlind_exceptBytes (traceBlind_rxEvent (traceBlind_next (updateBlind_raise _)))
  | rxSelectByte b =>
    exact traceBlind_rxEvent (traceBlind_appendByte (traceBlind_ite (p := fun s => s.buf.length = 4)
      traceBlind_finishSelect (traceBlind_next fun _ _ _ => rfl)))
  | rxHeaderByte b => exact traceBlind_rxEvent (traceBlind_appendByte traceBlind_headerCheck)
  | rxDataByte b => exact traceBlind_rxEvent (traceBlind_appendByte traceBlind_dataCheck)
  | rxAeEnq => exact traceBlind_rxEvent (traceBlind_next (updateBlind_emit ACK))
  | rxAeEot =>
    exact traceBlind_rxEvent (traceBlind_withLatch fun l =>
      traceBlind_withRead (o := fun s => s.buf.readSeq 1 l.size.toNat) fun payload =>
        traceBlind_next ((updateBlind_dispatch l payload).comp (updateBlind_closeFrame .headerComplete)))
  | cmdDone =>
    exact traceBlind_ite (p := fun s => s.windowOpen = true) (traceBlind_next fun _ _ _ => rfl) (traceBlind_refused _)
  | cmdSend dest src fnc size bytes =>
    exact traceBlind_ite (p := fun s => s.windowOpen = true)
      (traceBlind_ite (p := fun _ => sendOperandsOk size bytes = true) (traceBlind_next fun _ _ _ => rfl)
        (traceBlind_refused _))
      (traceBlind_refused _)
  | txHdrAck => exact traceBlind_txEvent (traceBlind_next updateBlind_sendData)
  | txDataAck => exact traceBlind_txEvent (traceBlind_next ((updateBlind_finishSend .ok).comp (updateBlind_emit EOT)))
  | txHdrOther b | txDataOther b =>
    exact traceBlind_exceptBytes (traceBlind_txEvent (traceBlind_noAnswer (updateBlind_noteAnswer b) fun _ _ _ => rfl))
  | txTimeout => exact traceBlind_execTxTimeout
  | envLinkFail =>
    exact traceBlind_ite (p := fun s => s.alive = true) (traceBlind_next updateBlind_die) (traceBlind_refused _)
  | envReset => exact traceBlind_next fun _ _ _ => rfl
  | _ => cases hi

theorem decodeEvent_of_noConsumer {s : State} (hc : s.canConsume = false) (b : Byte) :
    decodeEvent s.consumer b = .reject .noConsumer := by
  unfold State.canConsume at hc
  split at hc
  · cases hc
  · cases hc
  · cases hc
  · next hw => rw [hw, decodeEvent]
  · next hw => rw [hw, decodeEvent]

/-- The consumer selects the same event whatever the traces hold (R43, R89). -/
theorem traceBlind_consumeByte (b : Byte) : TraceBlind (consumeByte b) := by
  intro s m d
  obtain ⟨i, hg, hd, -, -, e⟩ | ⟨hc, e⟩ := consumeByte_cases b s
  · obtain ⟨i', -, hd', -, -, e'⟩ | ⟨hc', -⟩ := consumeByte_cases b (withTraces s m d)
    · obtain rfl : i = i' := Decoded.instr.inj (hd.symm.trans hd')
      simp only [e, e']
      exact traceBlind_exec_event hg s m d
    · cases hd.symm.trans (decodeEvent_of_noConsumer hc' b)
  · obtain ⟨i', -, hd', -⟩ | ⟨-, e'⟩ := consumeByte_cases b (withTraces s m d)
    · cases hd'.symm.trans (decodeEvent_of_noConsumer hc b)
    · simp only [e, e']

/-- What is seen of `k` after an answer that is seen as `r`. -/
def thenSeen (k : State → Result) (r : Result) : Result :=
  match r with
  | .next t => mapNext State.withoutTraces (k t)
  | .fault f => .fault f
  | .refused e => .refused e

/-- Of the bytes that follow, what is seen depends only on what is seen of the first. -/
theorem consumeSeq_cons_seen {b : Byte} {bs : List Byte} {s : State} (hk : TraceBlind (consumeSeq bs))
    (hc : s.canConsume = true) :
    mapNext State.withoutTraces (consumeSeq (b :: bs) s) =
      thenSeen (consumeSeq bs) (mapNext State.withoutTraces (consumeByte b s)) := by
  simp only [consumeSeq, hc, if_true]
  cases consumeByte b s with
  | next t => exact (hk t [] []).symm
  | fault f => rfl
  | refused e => rfl

theorem traceBlind_consumeSeq (bs : List Byte) : TraceBlind (consumeSeq bs) := by
  induction bs with
  | nil => exact traceBlind_next fun _ _ _ => rfl
  | cons b bs ih =>
    intro s m d
    have hsame : (withTraces s m d).canConsume = s.canConsume := rfl
    cases hc : s.canConsume with
    | false =>
      rw [hc] at hsame
      simp only [consumeSeq, hc, hsame]
      rfl
    | true =>
      rw [hc] at hsame
      simp only [consumeSeq_cons_seen ih hc, consumeSeq_cons_seen ih hsame]
      exact congrArg _ (traceBlind_consumeByte b s m d)

theorem traceBlind_consumeFrame (bs : List Byte) : TraceBlind (consumeFrame bs) :=
  traceBlind_ite (p := fun s => s.canConsume = true ∧ bs <+: s.rxq) (traceBlind_consumeSeq bs) (traceBlind_refused _)

/-- An instruction is an event, a control byte or a frame of bytes (log 2). -/
theorem traceBlind_exec (i : Instr) : TraceBlind (exec i) := by
  cases i with
  | sel | soh | stx | etx | eot | enq | ack | wait | nak => exact traceBlind_consumeByte _
  | select | headerI8S8 | headerI8S16 | headerI16S8 | headerI16S16 | data => exact traceBlind_consumeFrame _
  | _ => exact traceBlind_exec_event rfl

/-- What the framer fetches is read from the flags, the parse state, the latches and `RXQ` (R43, R89). -/
theorem traceBlind_turn (u : Turn) : TraceBlind fun s => s.turn u := by
  cases u with
  | arrive b =>
    exact traceBlind_ite (p := fun s => s.alive = true) (traceBlind_next fun _ _ _ => rfl) (traceBlind_refused _)
  | command c => exact traceBlind_exec (decodeCommand c)
  | receive g =>
    intro s m d
    have hsame : (withTraces s m d).fetch g = s.fetch g := rfl
    cases hf : s.fetch g with
    | instr i =>
      simp only [turn_receive_of_fetch hf, turn_receive_of_fetch (hsame.trans hf)]
      exact traceBlind_exec i s m d
    | reject why => simp only [State.turn, hsame, hf]

theorem traceBlind_step : TraceBlind step := by
  intro s m d
  cases hs : s.script with
  | nil =>
    simp only [step_of_emptyScript hs, step_of_emptyScript (s := withTraces s m d) hs]
    exact traceBlind_turn (.receive .event) s m d
  | cons u sc =>
    simp only [step_of_script hs, step_of_script (s := withTraces s m d) hs]
    exact traceBlind_turn u (s.withScript sc) m d

/-- Settles O52: a step is a turn, a turn runs an instruction, and no operation an instruction is put together from reads
the traces. -/
theorem tracesNotRead : Obligations.TracesNotRead := traceBlind_step

end Sys2Proof.StateRules
end

section
/-! PROOFS of the statements of 30_encoding.md: the decoder and the encoder are inverse to each other (R71 to R76, R89), the
checksum byte is unique (R80, R81), and a control byte, a Select frame and a header are what their bytes are. First the
fields of a word, then each statement with the lemmas it needs. -/

namespace Sys2Proof.Encoding

open Sys2Proof.Machine Sys2Proof.Stmt Sys2Proof.Scope

/-! ### The fields of a word (R51, R52, R74) -/

@[simp] theorem be16_hiByte_loByte (v : BitVec 16) : be16 (hiByte v) (loByte v) = v :=
  BitVec.extractLsb'_append_extractLsb'_eq_extractLsb' (by rfl) |>.trans BitVec.extractLsb'_eq_self

section
variable (rsv : BitVec 5) (i16 s16 dir : Bool)

theorem getLsbD_fmtByte (k : Nat) : (fmtByte rsv i16 s16 dir).getLsbD k =
    if k = 0 then dir else if k = 1 then s16 else if k = 2 then i16 else rsv.getLsbD (k - 3) := by
  change (rsv ++ BitVec.ofBool i16 ++ BitVec.ofBool s16 ++ BitVec.ofBool dir).getLsbD k = _
  simp only [BitVec.getLsbD_append]
  match k with
  | 0 | 1 | 2 | k + 3 => simp

@[simp] theorem fmtDir_fmtByte : fmtDir (fmtByte rsv i16 s16 dir) = dir := getLsbD_fmtByte rsv i16 s16 dir 0

@[simp] theorem fmtS16_fmtByte : fmtS16 (fmtByte rsv i16 s16 dir) = s16 := getLsbD_fmtByte rsv i16 s16 dir 1

@[simp] theorem fmtI16_fmtByte : fmtI16 (fmtByte rsv i16 s16 dir) = i16 := getLsbD_fmtByte rsv i16 s16 dir 2

@[simp] theorem fmtRsv_fmtByte : fmtRsv (fmtByte rsv i16 s16 dir) = rsv := by
  refine BitVec.eq_of_getLsbD_eq fun k hk => ?_
  simp [fmtRsv, hk, getLsbD_fmtByte, Nat.add_comm 3 k]

end

/-! ### Decoding what the encoder writes (R71 to R76, R89) -/

/-- An event row is read in its own consumer state; the default rows' operands are not the bytes of the rows above them. -/
theorem decode_encode_event {i : Instr} (hg : grainOf i = .event) (hwf : i.wf = true) (rest : List Byte) :
    decode (consumerOf i) (declaredOf i) .event (followedBy (encode i) rest) = .instr i := by
  cases i with
  | rxIdleOther b =>
    obtain ⟨hsel, hsoh⟩ : b ≠ 0x31#8 ∧ b ≠ 0x01#8 := by simpa [Instr.wf] using hwf
    exact (if_neg hsel).trans (if_neg hsoh)
  | rxHcOther b => exact if_neg (by simpa [Instr.wf] using hwf)
  | rxAeOther b =>
    obtain ⟨henq, heot⟩ : b ≠ 0x05#8 ∧ b ≠ 0x04#8 := by simpa [Instr.wf] using hwf
    exact (if_neg henq).trans (if_neg heot)
  | txHdrOther b | txDataOther b => exact if_neg (by simpa [Instr.wf] using hwf)
  | rxIdleSel | rxIdleSoh | rxSelectByte | rxHeaderByte | rxHcStx | rxDataByte | rxAeEnq | rxAeEot | txHdrAck | txDataAck =>
    rfl
  | cmdDone | cmdSend | txTimeout | envLinkFail | envReset => rfl
  | _ => cases hg

theorem decode_encode_control {i : Instr} (hg : grainOf i = .control) (c : Consumer) (rest : List Byte) :
    decode c (declaredOf i) .control (followedBy (encode i) rest) = .instr i := by
  cases i with
  | sel | soh | stx | etx | eot | enq | ack | wait | nak => rfl
  | _ => cases hg

/-- A payload of a declarable size is cut out of the bytes by its length (R76, R88). -/
theorem decodeData_append {payload : List Byte} (e c : Byte) (rest : List Byte) (hmin : 1 ≤ payload.length)
    (hmax : payload.length ≤ 65536) :
    decodeData payload.length (payload ++ e :: c :: rest) = .instr (.data payload e c) := by
  rw [decodeData, if_neg (by omega), List.drop_left, List.take_left]

theorem decode_encode_frame {i : Instr} (hg : grainOf i = .frame) (hwf : i.wf = true) (c : Consumer)
    (rest : List Byte) : decode c (declaredOf i) .frame (followedBy (encode i) rest) = .instr i := by
  cases i with
  | select d m t => rfl
  | headerI8S8 | headerI8S16 | headerI16S8 | headerI16S16 =>
    simp [decode, encode, followedBy, decodeFrame, decodeHeader]
  | data payload e k =>
    obtain ⟨hmin, hmax⟩ : 1 ≤ payload.length ∧ payload.length ≤ 65536 := by simpa [Instr.wf] using hwf
    simpa [decode, encode, followedBy, decodeFrame, declaredOf] using decodeData_append e k rest hmin hmax
  | _ => cases hg

/-- Settles O2: each grain has its own decoder, and only the event decoder looks at the consumer. -/
theorem decodeEncodeRoundTrip : Obligations.DecodeEncodeRoundTrip := by
  intro i c rest hwf hc
  cases hg : grainOf i with
  | event =>
    obtain rfl : c = consumerOf i := hc (decide_eq_true hg)
    exact decode_encode_event hg hwf rest
  | control => exact decode_encode_control hg c rest
  | frame => exact decode_encode_frame hg hwf c rest

/-! ### Encoding what the decoder reads (R71, R89) -/

/-- The instruction is well-formed, of the grain `g`, and encoded by this one byte. -/
def IsByteOf (g : Grain) (b : Byte) (i : Instr) : Prop :=
  i.wf = true ∧ grainOf i = g ∧ encode i = .link [b]

/-- A row of R89 with a fixed byte stands above what the other bytes are read as. -/
theorem isByteOf_of_ite {b k : Byte} {x i : Instr} {other : Decoded} (hx : IsByteOf .event k x)
    (h : (if b = k then .instr x else other) = .instr i)
    (hother : b ≠ k → other = .instr i → IsByteOf .event b i) : IsByteOf .event b i := by
  split at h
  · next hb => cases h; exact hb ▸ hx
  · next hb => exact hother hb h

/-- A default row gets no byte of the rows above it (R89). -/
theorem isByteOf_decodeEvent {c : Consumer} {b : Byte} {i : Instr} (h : decodeEvent c b = .instr i) :
    IsByteOf .event b i := by
  cases c with
  | parser r =>
    cases r with
    | idle =>
      refine isByteOf_of_ite ⟨rfl, rfl, rfl⟩ h fun hsel h => isByteOf_of_ite ⟨rfl, rfl, rfl⟩ h fun hsoh h => ?_
      cases h
      exact ⟨by simp [Instr.wf, hsel, hsoh], rfl, rfl⟩
    | headerComplete =>
      refine isByteOf_of_ite ⟨rfl, rfl, rfl⟩ h fun hstx h => ?_
      cases h
      exact ⟨by simp [Instr.wf, hstx], rfl, rfl⟩
    | awaitingEnd =>
      refine isByteOf_of_ite ⟨rfl, rfl, rfl⟩ h fun henq h => isByteOf_of_ite ⟨rfl, rfl, rfl⟩ h fun heot h => ?_
      cases h
      exact ⟨by simp [Instr.wf, henq, heot], rfl, rfl⟩
    | select | header | data => cases h; exact ⟨rfl, rfl, rfl⟩
  | hdrWait | dataWait =>
    refine isByteOf_of_ite ⟨rfl, rfl, rfl⟩ h fun hack h => ?_
    cases h
    exact ⟨by simp [Instr.wf, hack], rfl, rfl⟩
  | window | dead => cases h

/-- A control byte is read from its own row of R71. -/
theorem mem_controlBytes_of_decodeControl {b : Byte} {i : Instr} (h : decodeControl b = .instr i) :
    (i, b) ∈ controlBytes := by
  unfold decodeControl at h
  split_ifs at h <;> cases h <;> subst b <;> decide

theorem isByteOf_of_mem_controlBytes {b : Byte} {i : Instr} (h : (i, b) ∈ controlBytes) : IsByteOf .control b i := by
  have hall : ∀ p ∈ controlBytes, p.1.wf = true ∧ grainOf p.1 = .control ∧ encode p.1 = .link [p.2] := by decide
  exact hall (i, b) h

/-- Settles O3: an event or a control byte is the first byte, and a frame is the front of the bytes that it was read
from. -/
theorem encodeInvertsDecode : Obligations.EncodeInvertsDecode := by
  intro c declared g bs i h
  cases g with
  | frame => exact frontIsFrame_of_decode h
  | event =>
    cases bs with
    | nil => cases h
    | cons b rest =>
      obtain ⟨hwf, hg, he⟩ := isByteOf_decodeEvent h
      exact ⟨hwf, hg, [b], rest, he, rfl⟩
  | control =>
    cases bs with
    | nil => cases h
    | cons b rest =>
      obtain ⟨hwf, hg, he⟩ := isByteOf_of_mem_controlBytes (mem_controlBytes_of_decodeControl h)
      exact ⟨hwf, hg, [b], rest, he, rfl⟩

/-! ### The checksum byte (R80, R81) -/

theorem toNat_sum8 (bs : List Byte) : (sum8 bs).toNat = sumNat bs := by
  induction bs with
  | nil => rfl
  | cons b bs ih =>
    rw [sum8, BitVec.toNat_add, ih]
    simp [sumNat]

/-- The checksum is the sum's negative in the ring of bytes (R81). -/
theorem cks_eq_neg_sum8 (bs : List Byte) : cks bs = -sum8 bs :=
  BitVec.eq_of_toNat_eq (by simp [cks])

/-- Settles O4: the byte that makes the sum zero is the sum's negative. -/
theorem checksumByteUnique : Obligations.ChecksumByteUnique := by
  intro bs c
  refine ⟨toNat_sum8 bs, ?_, by rw [cks, cksNat, toNat_sum8]⟩
  calc sum8 (bs ++ [c]) = 0#8
      ↔ sum8 bs + c = 0#8 := by rw [sum8_append]; simp [sum8]
    _ ↔ c = -sum8 bs := add_eq_zero_iff_eq_neg'
    _ ↔ c = cks bs := by rw [cks_eq_neg_sum8]

/-! ### The fields of a header (R73) -/

theorem toNat_zext16 (b : Byte) : (zext16 b).toNat = b.toNat := by
  have := b.isLt
  simp [zext16]
  omega

theorem toNat_eq_pair (v : BitVec 16) : v.toNat = pair (hiByte v) (loByte v) := by
  have := v.isLt
  simp [pair, hiByte, loByte, Nat.shiftRight_eq_div_pow]
  omega

/-- The width bits in `fmt` give the length of what follows it (R75). -/
theorem headerComplete_of_fmtByte {m : Byte} {rsv : BitVec 5} {i16 s16 dir : Bool} {fields : List Byte}
    (h : fields.length = 5 + s16.toNat + 2 * i16.toNat) :
    HeaderComplete (m :: fmtByte rsv i16 s16 dir :: fields) := by
  refine ⟨_, _, _, rfl, ?_⟩
  rw [getLsbD_fmtByte, getLsbD_fmtByte, List.length_cons, List.length_cons, h]
  cases i16 <;> cases s16 <;> rfl

/-- Settles O39: each layout's `fmt` byte has the layout's two width bits, and its fields are the instruction's operands. -/
theorem everyHeaderHasFields : Obligations.EveryHeaderHasFields := by
  intro i h hi he
  cases i with
  | headerI8S8 rsv dir d s n z c =>
    cases he
    exact ⟨headerComplete_of_fmtByte rfl, zext16 d, zext16 s, n, z.toNat, _, _, _,
      .inl ⟨fmtI16_fmtByte .., fmtS16_fmtByte .., _, _, _, rfl, toNat_zext16 d, toNat_zext16 s, rfl⟩⟩
  | headerI8S16 rsv dir d s n z c =>
    cases he
    exact ⟨headerComplete_of_fmtByte rfl, zext16 d, zext16 s, n, z.toNat, _, _, _,
      .inr (.inl ⟨fmtI16_fmtByte .., fmtS16_fmtByte .., _, _, _, _, rfl, toNat_zext16 d, toNat_zext16 s,
        toNat_eq_pair z⟩)⟩
  | headerI16S8 rsv dir d s n z c =>
    cases he
    exact ⟨headerComplete_of_fmtByte rfl, d, s, n, z.toNat, _, _, _,
      .inr (.inr (.inl ⟨fmtI16_fmtByte .., fmtS16_fmtByte .., _, _, _, _, _, rfl, toNat_eq_pair d, toNat_eq_pair s,
        rfl⟩))⟩
  | headerI16S16 rsv dir d s n z c =>
    cases he
    exact ⟨headerComplete_of_fmtByte rfl, d, s, n, z.toNat, _, _, _,
      .inr (.inr (.inr ⟨fmtI16_fmtByte .., fmtS16_fmtByte .., _, _, _, _, _, _, rfl, toNat_eq_pair d, toNat_eq_pair s,
        toNat_eq_pair z⟩))⟩
  | _ => cases hi

/-! ### No byte stops the block in a state of the invariant (R40, R71) -/

/-- A rule answers a next state. -/
def GoesOn (r : Result) : Prop := ∃ t, r = .next t

theorem goesOn_next (t : State) : GoesOn (.next t) := ⟨t, rfl⟩

theorem goesOn_ite {p : Prop} [Decidable p] {r r' : Result} (h : p → GoesOn r) (h' : ¬ p → GoesOn r') :
    GoesOn (if p then r else r') := by
  split
  · next hp => exact h hp
  · next hp => exact h' hp

theorem goesOn_rxEvent {r : RxState} {b : Byte} {k : State → Result} {s : State} {rest : List Byte}
    (h : TookByParser s r b rest) (hk : GoesOn (k (s.taken b rest))) : GoesOn (rxEvent r b k s) := by
  obtain ⟨hq, ha, hb, hr⟩ := h
  rwa [rxEvent_enabled k ha hb hr hq]

theorem goesOn_txEvent {p : TxState} {b : Byte} {k : State → Result} {s : State} {rest : List Byte}
    (h : TookBySender s p b rest) (hk : GoesOn (k (s.taken b rest))) : GoesOn (txEvent p b k s) := by
  obtain ⟨hq, ha, ht⟩ := h
  rwa [txEvent_enabled k ha ht hq]

theorem goesOn_exceptBytes {l : List Byte} {b : Byte} {r : Result} (hb : b ∉ l) (h : GoesOn r) :
    GoesOn (exceptBytes l b r) := by
  rwa [exceptBytes_of_notMem r hb]

theorem goesOn_appendByte {b : Byte} {k : State → Result} {s : State} (hl : s.buf.length < bufCap)
    (hk : GoesOn (k (s.setBuf (s.buf.append b)))) : GoesOn (appendByte b k s) := by
  rwa [appendByte_below k hl]

theorem goesOn_withRead {α : Type} {o : Option α} {k : α → Result} {x : α} (ho : o = some x) (hk : GoesOn (k x)) :
    GoesOn (withRead o k) := by
  rwa [ho]

theorem goesOn_withLatch {s : State} {k : HeaderLatch → Result} {l : HeaderLatch} (hl : s.latches = some l)
    (hk : GoesOn (k l)) : GoesOn (withLatch s k) := by
  rwa [withLatch, hl]

/-- A field of one or two bytes can be read where the buffer reaches its last byte (R58). -/
theorem exists_readField {m : Memory} (hwf : m.wf) {a : Nat} {wide : Bool} (h : a + wide.toNat < m.length) :
    ∃ v, m.readField a wide = some v := by
  obtain ⟨hi, hhi⟩ := (Memory.read_isSome_iff hwf).2 (show a < m.length by omega)
  cases wide with
  | false => exact ⟨_, by rw [Memory.readField, hhi]; rfl⟩
  | true =>
    obtain ⟨lo, hlo⟩ := (Memory.read_isSome_iff hwf).2 h
    exact ⟨be16 hi lo, by simp only [Memory.readField, if_true, hhi, show m.read (a + 1) = some lo from hlo]⟩

/-- A header frame of the length its `fmt` byte gives has all the fields that the latches take (R75, R121). -/
theorem exists_headerLatch {m : Memory} {fmt : Byte} (hwf : m.wf) (hf : m.read 1 = some fmt)
    (hl : m.length = hdrLen fmt) : ∃ l, headerLatch m = some l := by
  rw [hdrLen] at hl
  obtain ⟨did, hdid⟩ := exists_readField hwf (a := 2) (wide := fmtI16 fmt) (by omega)
  obtain ⟨sid, hsid⟩ := exists_readField hwf (a := 3 + (fmtI16 fmt).toNat) (wide := fmtI16 fmt) (by omega)
  obtain ⟨fnc, hfnc⟩ := (Memory.read_isSome_iff hwf).2 (show 4 + 2 * (fmtI16 fmt).toNat < m.length by omega)
  obtain ⟨field, hfield⟩ :=
    exists_readField hwf (a := 5 + 2 * (fmtI16 fmt).toNat) (wide := fmtS16 fmt) (by omega)
  exact ⟨⟨did, sid, fnc, sizeOfField field⟩, by simp only [headerLatch, hf, hdid, hsid, hfnc, hfield]⟩

/-- A Select frame that is complete has its slaveID (R104). -/
theorem goesOn_execRxSelectByte {s : State} {b : Byte} {rest : List Byte} (h : TookByParser s .select b rest)
    (hwf : s.buf.wf) (hl : s.buf.length ≤ 3) : GoesOn (execRxSelectByte b s) := by
  refine goesOn_rxEvent h (goesOn_appendByte (lt_of_le_of_lt hl (by decide))
    (goesOn_ite (fun h4 => ?_) fun _ => goesOn_next _))
  obtain ⟨slave, hslave⟩ := (Memory.read_isSome_iff (Memory.wf_append hwf b)).2 (h4.symm ▸ (by decide : 1 < 4))
  exact goesOn_withRead hslave (goesOn_next _)

/-- A header frame that is complete has its `fmt` byte and all its fields (R120, R121). -/
theorem goesOn_execRxHeaderByte {s : State} {b : Byte} {rest : List Byte} (h : TookByParser s .header b rest)
    (hwf : s.buf.wf) (hl : s.buf.length ≤ 9) : GoesOn (execRxHeaderByte b s) := by
  refine goesOn_rxEvent h (goesOn_appendByte (lt_of_le_of_lt hl (by decide))
    (goesOn_ite (fun _ => goesOn_next _) fun h2 => ?_))
  have hwf' := Memory.wf_append hwf b
  obtain ⟨fmt, hfmt⟩ := (Memory.read_isSome_iff hwf').2 (Nat.not_lt.1 h2)
  refine goesOn_withRead hfmt (goesOn_ite (fun hlen => goesOn_ite (fun _ => ?_) fun _ => goesOn_next _)
    fun _ => goesOn_next _)
  obtain ⟨l, hlatch⟩ := exists_headerLatch hwf' hfmt hlen
  exact goesOn_withRead hlatch (goesOn_next _)

/-- Under written latches a data frame that is not complete leaves room for a byte (R142). -/
theorem goesOn_execRxDataByte {s : State} {b : Byte} {rest : List Byte} {l : HeaderLatch}
    (h : TookByParser s .data b rest) (hlatch : s.latches = some l) (hmax : l.size.toNat ≤ 65536)
    (hl : s.buf.length ≤ l.size.toNat + 2) : GoesOn (execRxDataByte b s) :=
  goesOn_rxEvent h (goesOn_appendByte (show s.buf.length < bufCap by simp only [bufCap]; omega)
    (goesOn_withLatch (l := l) hlatch
      (goesOn_ite (fun _ => goesOn_ite (fun _ => goesOn_next _) fun _ => goesOn_next _) fun _ => goesOn_next _)))

/-- The kept data frame holds the payload that EOT dispatches (R146). -/
theorem goesOn_execRxAeEot {s : State} {rest : List Byte} {l : HeaderLatch} (h : TookByParser s .awaitingEnd EOT rest)
    (hwf : s.buf.wf) (hlatch : s.latches = some l) (hl : s.buf.length = l.size.toNat + 3) :
    GoesOn (execRxAeEot s) := by
  have hread := Memory.readSeq_ofBytes s.buf.bytes 1 l.size.toNat (by rw [Memory.bytes_length]; omega)
  rw [← Memory.eq_ofBytes hwf] at hread
  exact goesOn_rxEvent h (goesOn_withLatch (l := l) hlatch (goesOn_withRead hread (goesOn_next _)))

/-- While the parser consumes, the invariant gives every rule what it reads (R40 items 1 to 6). -/
theorem goesOn_consumeByte_parser {s : State} {b : Byte} {rest : List Byte} (hinv : s.Inv) (ha : s.alive = true)
    (hb : s.busy = false) (hq : s.rxq = b :: rest) : GoesOn (consumeByte b s) := by
  have hp := hinv.parser ha
  unfold consumeByte
  rw [consumer_parser s ha hb]
  unfold State.parserInv at hp
  cases hr : s.rxs with
  | idle =>
    exact goesOn_ite (fun e => goesOn_rxEvent ⟨e ▸ hq, ha, hb, hr⟩ (goesOn_next _)) fun hsel =>
      goesOn_ite (fun e => goesOn_rxEvent ⟨e ▸ hq, ha, hb, hr⟩ (goesOn_next _)) fun hsoh =>
        goesOn_exceptBytes (by simp [hsel, hsoh]) (goesOn_rxEvent ⟨hq, ha, hb, hr⟩ (goesOn_next _))
  | select =>
    rw [hr] at hp
    obtain ⟨-, hl, -⟩ := hp
    exact goesOn_execRxSelectByte ⟨hq, ha, hb, hr⟩ hinv.wf hl
  | header =>
    rw [hr] at hp
    obtain ⟨-, -, hl, -⟩ := hp
    exact goesOn_execRxHeaderByte ⟨hq, ha, hb, hr⟩ hinv.wf hl
  | headerComplete =>
    exact goesOn_ite (fun e => goesOn_rxEvent ⟨e ▸ hq, ha, hb, hr⟩ (goesOn_next _)) fun hstx =>
      goesOn_exceptBytes (by simp [hstx]) (goesOn_rxEvent ⟨hq, ha, hb, hr⟩ (goesOn_next _))
  | data =>
    rw [hr] at hp
    obtain ⟨-, -, ⟨l, hlatch, -, hmax⟩, hl⟩ := hp
    exact goesOn_execRxDataByte ⟨hq, ha, hb, hr⟩ hlatch hmax (hl l hlatch)
  | awaitingEnd =>
    rw [hr] at hp
    obtain ⟨-, ⟨l, hlatch, -⟩, hl⟩ := hp
    exact goesOn_ite (fun e => goesOn_rxEvent ⟨e ▸ hq, ha, hb, hr⟩ (goesOn_next _)) fun henq =>
      goesOn_ite (fun e => goesOn_execRxAeEot ⟨e ▸ hq, ha, hb, hr⟩ hinv.wf hlatch (hl l hlatch)) fun heot =>
        goesOn_exceptBytes (by simp [henq, heot]) (goesOn_rxEvent ⟨hq, ha, hb, hr⟩ (goesOn_next _))

/-- In a sender's wait every byte is an answer (R176 to R180). -/
theorem goesOn_consumeByte_sender {s : State} {b : Byte} {rest : List Byte} (ha : s.alive = true)
    (hb : s.busy = true) (ht : s.txs ≠ .txIdle) (hq : s.rxq = b :: rest) : GoesOn (consumeByte b s) := by
  unfold consumeByte
  cases hp : s.txs with
  | txIdle => exact absurd hp ht
  | txHdrWait =>
    rw [consumer_hdrWait s ha hb hp]
    exact goesOn_ite (fun e => goesOn_txEvent ⟨e ▸ hq, ha, hp⟩ (goesOn_next _)) fun hack =>
      goesOn_exceptBytes (by simp [hack]) (goesOn_txEvent ⟨hq, ha, hp⟩ (goesOn_next _))
  | txDataWait =>
    rw [consumer_dataWait s ha hb hp]
    exact goesOn_ite (fun e => goesOn_txEvent ⟨e ▸ hq, ha, hp⟩ (goesOn_next _)) fun hack =>
      goesOn_exceptBytes (by simp [hack]) (goesOn_txEvent ⟨hq, ha, hp⟩ (goesOn_next _))

/-- In a state of the invariant a byte that heads `RXQ` is consumed wherever somebody consumes. -/
theorem goesOn_consumeByte {s : State} {b : Byte} {rest : List Byte} (hinv : s.Inv) (hc : s.canConsume = true)
    (hq : s.rxq = b :: rest) : GoesOn (consumeByte b s) := by
  obtain ⟨ha, hconsumer⟩ := (canConsume_iff s).1 hc
  cases hb : s.busy with
  | false => exact goesOn_consumeByte_parser hinv ha hb hq
  | true => exact goesOn_consumeByte_sender ha hb (hconsumer.resolve_left (by simp [hb])) hq

theorem exec_of_mem_controlBytes {c : Instr} {b : Byte} (h : (c, b) ∈ controlBytes) (s : State) :
    exec c s = consumeByte b s := by
  have hall : ∀ p ∈ controlBytes, exec p.1 s = consumeByte p.2 s := by
    simp only [controlBytes, List.forall_mem_cons]
    exact ⟨rfl, rfl, rfl, rfl, rfl, rfl, rfl, rfl, rfl, by simp⟩
  exact hall (c, b) h

/-- A consumed byte runs the event that the decoder names for the present consumer (R43, R89). -/
theorem consumeByte_of_decodeEvent {s : State} {b : Byte} {i : Instr} (h : decodeEvent s.consumer b = .instr i) :
    consumeByte b s = exec i s := by
  obtain ⟨j, -, hj, -, -, e⟩ | ⟨hc, -⟩ := consumeByte_cases b s
  · obtain rfl : j = i := Decoded.instr.inj (hj.symm.trans h)
    exact e
  · cases (StateRules.decodeEvent_of_noConsumer hc b).symm.trans h

/-- Settles O36: the control byte and its event are both the consumption of the byte, which the invariant lets go on. -/
theorem controlByteRunsItsEvent : Obligations.ControlByteRunsItsEvent := by
  intro s c i b rest hinv hc hmem hq hd
  obtain ⟨t, ht⟩ := goesOn_consumeByte hinv hc hq
  have hqueue : b :: rest = b :: t.rxq := hq.symm.trans (consumeByte_head ht)
  exact ⟨t, (exec_of_mem_controlBytes hmem s).trans ht, (consumeByte_of_decodeEvent hd).symm.trans ht,
    (List.tail_eq_of_cons_eq hqueue).symm⟩

/-! ### A Select frame, byte by byte (R72, R101, R104) -/

/-- The state in which `stored` of a frame has been received since `s`, the parser is in `r`, and `rest` is queued. -/
def midFrame (s : State) (r : RxState) (stored rest : List Byte) : State :=
  { s with rxs := r, rxq := rest, buf := Memory.ofBytes stored, mon := s.mon ++ rxTrace stored }

/-- Taking and storing the next byte (R57, R100). -/
theorem appendByte_taken_midFrame {s : State} {r : RxState} {stored : List Byte} (b : Byte) (rest : List Byte)
    (k : State → Result) (hl : stored.length < bufCap) :
    appendByte b k ((midFrame s r stored (b :: rest)).taken b rest) = k (midFrame s r (stored ++ [b]) rest) := by
  have hroom : ((midFrame s r stored (b :: rest)).taken b rest).buf.length < bufCap :=
    (Memory.length_ofBytes stored).symm ▸ hl
  rw [appendByte_below k hroom]
  simp [midFrame, State.taken, State.setBuf, rxTrace]

/-- The marker opens a Select frame (R101). -/
theorem consumeByte_sel_eq_midFrame {s : State} {rest : List Byte} (h : TookByParser s .idle SEL rest) :
    consumeByte SEL s = .next (midFrame s .select [SEL] rest) := by
  obtain ⟨hq, ha, hb, hr⟩ := h
  calc consumeByte SEL s
      = execRxIdleSel s := by rw [consumeByte, consumer_parser s ha hb, hr]; rfl
    _ = .next ((s.taken SEL rest).openFrame SEL .select) := rxEvent_enabled _ ha hb hr hq

/-- A byte of a Select frame is stored, and the fourth ends the frame (R104). -/
theorem consumeByte_midFrame_select {s : State} {stored : List Byte} (b : Byte) (rest : List Byte)
    (ha : s.alive = true) (hb : s.busy = false) (hl : stored.length ≤ 3) :
    consumeByte b (midFrame s .select stored (b :: rest)) =
      if stored.length = 3 then finishSelect (midFrame s .select (stored ++ [b]) rest)
      else .next (midFrame s .select (stored ++ [b]) rest) := by
  calc consumeByte b (midFrame s .select stored (b :: rest))
      = execRxSelectByte b (midFrame s .select stored (b :: rest)) := by
        rw [consumeByte, consumer_parser (midFrame s .select stored (b :: rest)) ha hb]; rfl
    _ = appendByte b (fun s => if s.buf.length = 4 then finishSelect s else .next s)
          ((midFrame s .select stored (b :: rest)).taken b rest) :=
        rxEvent_enabled (s := midFrame s .select stored (b :: rest)) _ ha hb rfl rfl
    _ = _ := by
        rw [appendByte_taken_midFrame b rest _ (lt_of_le_of_lt hl (by decide))]
        simp [midFrame]

/-- Before the fourth byte a Select frame goes on. -/
theorem consumeSeq_midFrame_select {s : State} {stored : List Byte} (b : Byte) (bs rest : List Byte)
    (ha : s.alive = true) (hb : s.busy = false) (hl : stored.length < 3) :
    consumeSeq (b :: bs) (midFrame s .select stored (b :: rest)) =
      consumeSeq bs (midFrame s .select (stored ++ [b]) rest) :=
  consumeSeq_step bs ((canConsume_iff _).2 ⟨ha, .inl hb⟩)
    ((consumeByte_midFrame_select b rest ha hb hl.le).trans (if_neg hl.ne))

theorem finishSelect_of_read {s : State} {slave : Byte} (h : s.buf.read 1 = some slave) :
    finishSelect s = .next ((if zext16 slave ∈ s.cfg.reg then s.emit ACK else s).closeFrame .idle) := by
  simp [finishSelect, h, withRead, State.registered]

/-- A received Select frame: the ACK depends on the slaveID alone, and the parser is in `Idle` again (R104, R105). -/
theorem finishSelect_midFrame {s : State} (slave master term : Byte) (rest : List Byte) (hr : s.rxs = .idle) :
    finishSelect (midFrame s .select [SEL, slave, master, term] rest) = .next { s with
      rxq := rest, buf := []
      mon := s.mon ++ rxTrace [0x31#8, slave, master, term] ++
        (if slave.zeroExtend 16 ∈ s.cfg.reg then [(.tx, 0x06#8)] else [])
      txOut := s.txOut ++ (if slave.zeroExtend 16 ∈ s.cfg.reg then [0x06#8] else []) } := by
  rw [finishSelect_of_read (slave := slave) rfl]
  by_cases hreg : slave.zeroExtend 16 ∈ s.cfg.reg <;>
    simp [zext16, hreg, midFrame, State.closeFrame, State.setBuf, State.setRxs, State.emit, hr]

/-- Settles O37: the marker opens the frame, two bytes are stored, and the last one draws the answer. -/
theorem selectFrameAnswered : Obligations.SelectFrameAnswered := by
  intro s slave master term rest ha hb hr hq
  have hc : s.canConsume = true := (canConsume_iff s).2 ⟨ha, .inl hb⟩
  have hlast : consumeByte term (midFrame s .select [SEL, slave, master] (term :: rest)) = _ :=
    (consumeByte_midFrame_select term rest ha hb le_rfl).trans (finishSelect_midFrame slave master term rest hr)
  calc exec (.select slave master term) s
      = consumeSeq [SEL, slave, master, term] s := if_pos ⟨hc, rest, hq.symm⟩
    _ = consumeSeq [slave, master, term] (midFrame s .select [SEL] (slave :: master :: term :: rest)) :=
        consumeSeq_step _ hc (consumeByte_sel_eq_midFrame ⟨hq, ha, hb, hr⟩)
    _ = consumeSeq [master, term] (midFrame s .select [SEL, slave] (master :: term :: rest)) :=
        consumeSeq_midFrame_select _ _ _ ha hb (by decide)
    _ = consumeSeq [term] (midFrame s .select [SEL, slave, master] (term :: rest)) :=
        consumeSeq_midFrame_select _ _ _ ha hb (by decide : 2 < 3)
    _ = _ := consumeSeq_step [] ((canConsume_iff _).2 ⟨ha, .inl hb⟩) hlast

/-! ### Words written out -/

/-- Settles O1: seven closed words, computed. -/
theorem decodeSampleWords : Obligations.DecodeSampleWords :=
  ⟨by decide, by decide, by decide, by decide, by decide, by decide, by decide⟩

end Sys2Proof.Encoding
end

section
/-! PROOFS of the statements of 40_rx_idle_select.md: an event that is not enabled has no step (R11, R100), the three rows
of `Idle` (R101 to R103), and a byte of a Select frame (R104). First what an event does where its rule is enabled and
where it is not. -/

namespace Sys2Proof.IdleSelect

open Sys2Proof.Machine Sys2Proof.Stmt

/-! ### Enabled and not enabled (R11, R100) -/

theorem tookByParser_iff {s : State} {r : RxState} {b : Byte} {rest : List Byte} :
    TookByParser s r b rest ↔ ParserReady s r b rest := by
  constructor
  · rintro ⟨hq, ha, hb, hr⟩
    exact ⟨ha, hb, hr, hq⟩
  · rintro ⟨ha, hb, hr, hq⟩
    exact ⟨hq, ha, hb, hr⟩

theorem tookBySender_iff {s : State} {p : TxState} {b : Byte} {rest : List Byte} :
    TookBySender s p b rest ↔ SenderReady s p b rest := by
  constructor
  · rintro ⟨hq, ha, ht⟩
    exact ⟨ha, ht, hq⟩
  · rintro ⟨ha, ht, hq⟩
    exact ⟨hq, ha, ht⟩

theorem rxEvent_of_ready {s : State} {r : RxState} {b : Byte} {rest : List Byte} (k : State → Result)
    (h : ParserReady s r b rest) : rxEvent r b k s = k (s.taken b rest) := by
  obtain ⟨ha, hb, hr, hq⟩ := h
  exact rxEvent_enabled k ha hb hr hq

theorem rxEvent_of_notReady {s : State} {r : RxState} {b : Byte} (k : State → Result)
    (h : ¬ ∃ rest, ParserReady s r b rest) : rxEvent r b k s = .refused .notEnabled :=
  StateRules.rxEvent_disabled k fun ⟨rest, ht⟩ => h ⟨rest, tookByParser_iff.1 ht⟩

theorem txEvent_of_notReady {s : State} {p : TxState} {b : Byte} (k : State → Result)
    (h : ¬ ∃ rest, SenderReady s p b rest) : txEvent p b k s = .refused .notEnabled :=
  StateRules.txEvent_disabled k fun ⟨rest, ht⟩ => h ⟨rest, tookBySender_iff.1 ht⟩

/-- A default row is refused for a byte of the rows above it, and for any other byte where it is refused itself (R89). -/
theorem exceptBytes_refused {l : List Byte} {b : Byte} {r : Result} (h : b ∉ l → r = .refused .notEnabled) :
    exceptBytes l b r = .refused .notEnabled := by
  unfold exceptBytes
  split
  · rfl
  · next hb => exact h hb

theorem ite_windowOpen_of_closed {s : State} (r : Result) (h : ¬ (s.alive = true ∧ s.busy = true ∧ s.txs = .txIdle)) :
    (if s.windowOpen then r else .refused .notEnabled) = .refused .notEnabled :=
  if_neg fun hw => h ((windowOpen_iff s).1 hw)

/-- The timeout needs a wait in progress and nothing queued (R178). -/
theorem execTxTimeout_disabled {s : State} (h : ¬ (s.alive = true ∧ s.txs ≠ .txIdle ∧ s.rxq = [])) :
    execTxTimeout s = .refused .notEnabled := by
  unfold execTxTimeout
  split
  · next hc =>
    have hidle : s.txs = .txIdle := by_contra fun ht => h ⟨hc.1, ht, hc.2⟩
    rw [hidle]
  · rfl

/-- Settles O8: the first thing each event row tests is its own enabling condition. -/
theorem disabledEventRefused : Obligations.DisabledEventRefused := by
  intro i s hi hn
  cases i with
  | rxIdleSel | rxIdleSoh | rxSelectByte | rxHeaderByte | rxHcStx | rxDataByte | rxAeEnq | rxAeEot =>
    rw [exec]
    exact rxEvent_of_notReady _ hn
  | rxIdleOther b | rxAeOther b =>
    refine exceptBytes_refused fun hb => rxEvent_of_notReady _ fun hready => hn ?_
    obtain ⟨h1, h2⟩ : b ≠ _ ∧ b ≠ _ := by simpa using hb
    exact ⟨h1, h2, hready⟩
  | rxHcOther b =>
    exact exceptBytes_refused fun hb => rxEvent_of_notReady _ fun hready => hn ⟨by simpa using hb, hready⟩
  | txHdrOther b | txDataOther b =>
    exact exceptBytes_refused fun hb => txEvent_of_notReady _ fun hready => hn ⟨by simpa using hb, hready⟩
  | txHdrAck | txDataAck =>
    rw [exec]
    exact txEvent_of_notReady _ hn
  | cmdDone | cmdSend => exact ite_windowOpen_of_closed _ hn
  | txTimeout => exact execTxTimeout_disabled hn
  | envLinkFail => exact if_neg hn
  | envReset => exact absurd trivial hn
  | _ => cases hi

/-! ### A byte of a Select frame (R104) -/

/-- In a buffer that holds exactly `bs`, an append below `BUF_CAP` leaves exactly `bs ++ [b]` (R57). -/
theorem appendByte_of_ofBytes {s : State} {bs : List Byte} (b : Byte) (k : State → Result)
    (hbuf : s.buf = Memory.ofBytes bs) (hl : bs.length < bufCap) :
    appendByte b k s = k (s.setBuf (Memory.ofBytes (bs ++ [b]))) := by
  have hroom : s.buf.length < bufCap := by simpa [hbuf] using hl
  rw [appendByte_below k hroom, hbuf, Memory.ofBytes_append]

/-- The byte is taken and stored, and the fourth one then ends the frame. -/
theorem execRxSelectByte_of_ready {s : State} {b : Byte} {rest bs : List Byte} (h : ParserReady s .select b rest)
    (hbuf : s.buf = Memory.ofBytes bs) (hl : bs.length < bufCap) :
    execRxSelectByte b s =
      if bs.length = 3 then finishSelect ((s.taken b rest).setBuf (Memory.ofBytes (bs ++ [b])))
      else .next ((s.taken b rest).setBuf (Memory.ofBytes (bs ++ [b]))) := by
  rw [execRxSelectByte, rxEvent_of_ready _ h, appendByte_of_ofBytes (s := s.taken b rest) b _ hbuf hl]
  simp

/-- The answer to a complete Select frame `m slave master b`: the ACK depends on the slaveID alone. -/
theorem finishSelect_stored (s : State) (m slave master b : Byte) :
    finishSelect (s.setBuf (Memory.ofBytes [m, slave, master, b])) = .next { s with
      buf := [], rxs := .idle
      mon := s.mon ++ (if slave.zeroExtend 16 ∈ s.cfg.reg then [(.tx, 0x06#8)] else [])
      txOut := s.txOut ++ (if slave.zeroExtend 16 ∈ s.cfg.reg then [0x06#8] else []) } := by
  rw [Encoding.finishSelect_of_read (slave := slave) rfl]
  by_cases hreg : slave.zeroExtend 16 ∈ s.cfg.reg <;>
    simp [zext16, hreg, State.closeFrame, State.setBuf, State.setRxs, State.emit]

/-- Settles O12: the buffer's length tells whether the byte is stored or is the fourth. -/
theorem selectByteStoresThenAnswers : Obligations.SelectByteStoresThenAnswers := by
  intro s b rest bs hready hbuf
  refine ⟨fun h3 hl => ?stored, fun m slave master hbs => ?fourth⟩
  case stored => exact (execRxSelectByte_of_ready hready hbuf hl).trans (if_neg h3)
  case fourth =>
    subst hbs
    exact (execRxSelectByte_of_ready hready hbuf (by decide : 3 < bufCap)).trans
      (finishSelect_stored (s.taken b rest) m slave master b)

/-! ### The rows of `Idle` (R101 to R103) -/

/-- Settles O9: the enabled row opens the frame. -/
theorem selectMarkerOpensSelect : Obligations.SelectMarkerOpensSelect :=
  fun _ _ hready => rxEvent_of_ready (fun s => .next (s.openFrame SEL .select)) hready

/-- Settles O10: the enabled row opens the frame. -/
theorem headerMarkerOpensHeader : Obligations.HeaderMarkerOpensHeader :=
  fun _ _ hready => rxEvent_of_ready (fun s => .next (s.openFrame SOH .header)) hready

/-- Settles O11: neither marker, so the default row is not excluded, and it reports E3 (R203). -/
theorem unassociatedByteDropped : Obligations.UnassociatedByteDropped := by
  intro s b rest hsel hsoh hready
  have hdefault : b ∉ [SEL, SOH] := by simp [hsel, hsoh]
  exact (exceptBytes_of_notMem _ hdefault).trans (rxEvent_of_ready _ hready)

end Sys2Proof.IdleSelect
end

section
/-! PROOFS of the statements of 41_rx_header.md: what a byte in `Header` does before and at the end of the frame (R120 to
R122), a header frame received in `Idle`, and the loop-back of a SEND's header (R173). First when a header is complete and
which latches it gives, then the test after an append, then each statement with the lemmas it needs. -/

namespace Sys2Proof.RxHeader

open Sys2Proof.Machine Sys2Proof.Stmt
open Encoding (midFrame)

/-! ### When a header is complete (R75, R120) -/

/-- The length test reads only the byte at offset 1. -/
theorem headerComplete_iff {h : List Byte} : HeaderComplete h ↔ ∃ fmt, h[1]? = some fmt ∧ h.length = hdrLen fmt := by
  have hlen (fmt : Byte) :
      hdrLen fmt = 7 + (if fmt.getLsbD 1 then 1 else 0) + 2 * (if fmt.getLsbD 2 then 1 else 0) := by
    simp only [hdrLen, fmtS16, fmtI16]
    cases fmt.getLsbD 1 <;> cases fmt.getLsbD 2 <;> rfl
  constructor
  · rintro ⟨m, fmt, rest, rfl, hl⟩
    exact ⟨fmt, rfl, hl.trans (hlen fmt).symm⟩
  · rintro ⟨fmt, hf, hl⟩
    match h, hf with
    | m :: _ :: rest, rfl => exact ⟨m, fmt, rest, rfl, hl.trans (hlen fmt)⟩

theorem length_le_of_headerComplete {h : List Byte} (hc : HeaderComplete h) : h.length ≤ 10 := by
  obtain ⟨fmt, -, hl⟩ := headerComplete_iff.1 hc
  exact hl.trans_le (hdrLen_bounds fmt).2

/-- A frame that is complete was not complete before its last byte: its first part has the same `fmt`. -/
theorem not_headerComplete_of_append {h tail : List Byte} (hc : HeaderComplete (h ++ tail)) (hne : tail ≠ []) :
    ¬ HeaderComplete h := by
  intro hc'
  obtain ⟨fmt', hf', hl'⟩ := headerComplete_iff.1 hc'
  obtain ⟨fmt, hf, hl⟩ := headerComplete_iff.1 hc
  have h1 : 1 < h.length := (List.getElem?_eq_some_iff.1 hf').1
  obtain rfl : fmt' = fmt := Option.some.inj (hf'.symm.trans ((List.getElem?_append_left h1).symm.trans hf))
  have := List.length_pos_iff.2 hne
  rw [List.length_append] at hl
  omega

theorem headerComplete_of_headerHas {h : List Byte} {did sid : DevId} {fnc : Byte} {field : Nat}
    (hh : HeaderHas h did sid fnc field) : HeaderComplete h := by
  obtain ⟨m, fmt, c, ⟨hi, hs, _, _, _, rfl, -⟩ | ⟨hi, hs, _, _, _, _, rfl, -⟩ | ⟨hi, hs, _, _, _, _, _, rfl, -⟩ |
    ⟨hi, hs, _, _, _, _, _, _, rfl, -⟩⟩ := hh
  all_goals exact ⟨m, fmt, _, rfl, by rw [hi, hs]; rfl⟩

/-! ### The latches a complete header gives (R77, R78, R121) -/

theorem toNat_be16 (hi lo : Byte) : (be16 hi lo).toNat = pair hi lo := by
  rw [Encoding.toNat_eq_pair, Scope.hiByte_be16, Scope.loByte_be16]

theorem eq_zext16 {v : BitVec 16} {b : Byte} (h : v.toNat = b.toNat) : v = zext16 b :=
  BitVec.eq_of_toNat_eq (h.trans (Encoding.toNat_zext16 b).symm)

theorem eq_be16 {v : BitVec 16} {hi lo : Byte} (h : v.toNat = pair hi lo) : v = be16 hi lo :=
  BitVec.eq_of_toNat_eq (h.trans (toNat_be16 hi lo).symm)

theorem sizeOfField_eq_ofNat (field : BitVec 16) : sizeOfField field = BitVec.ofNat 17 (field.toNat + 1) := by
  apply BitVec.eq_of_toNat_eq
  simp [sizeOfField]

/-- The fields are read where the widths in `fmt` put them (R55). -/
theorem headerLatch_eq_some {m : Memory} {fmt fnc : Byte} {did sid size1 : BitVec 16} {i16 s16 : Bool}
    (hi : fmtI16 fmt = i16) (hs : fmtS16 fmt = s16) (hfmt : m.read 1 = some fmt) (hdid : m.readField 2 i16 = some did)
    (hsid : m.readField (3 + i16.toNat) i16 = some sid) (hfnc : m.read (4 + 2 * i16.toNat) = some fnc)
    (hsize : m.readField (5 + 2 * i16.toNat) s16 = some size1) :
    headerLatch m = some ⟨did, sid, fnc, BitVec.ofNat 17 (size1.toNat + 1)⟩ := by
  subst hi hs
  simp only [headerLatch, hfmt, hdid, hsid, hfnc, hsize, sizeOfField_eq_ofNat]

/-- What R121 reads from a header of any of the four layouts. -/
theorem headerLatch_of_headerHas {h : List Byte} {did sid : DevId} {fnc : Byte} {field : Nat}
    (hh : HeaderHas h did sid fnc field) :
    headerLatch (Memory.ofBytes h) = some ⟨did, sid, fnc, BitVec.ofNat 17 (field + 1)⟩ := by
  obtain ⟨m, fmt, c, ⟨hi, hs, d, s, z, rfl, hd, hsrc, rfl⟩ | ⟨hi, hs, d, s, z1, z0, rfl, hd, hsrc, rfl⟩ |
    ⟨hi, hs, d1, d0, s1, s0, z, rfl, hd, hsrc, rfl⟩ | ⟨hi, hs, d1, d0, s1, s0, z1, z0, rfl, hd, hsrc, rfl⟩⟩ := hh
  · rw [eq_zext16 hd, eq_zext16 hsrc, ← Encoding.toNat_zext16 z]
    exact headerLatch_eq_some hi hs rfl rfl rfl rfl rfl
  · rw [eq_zext16 hd, eq_zext16 hsrc, ← toNat_be16 z1 z0]
    exact headerLatch_eq_some hi hs rfl rfl rfl rfl rfl
  · rw [eq_be16 hd, eq_be16 hsrc, ← Encoding.toNat_zext16 z]
    exact headerLatch_eq_some hi hs rfl rfl rfl rfl rfl
  · rw [eq_be16 hd, eq_be16 hsrc, ← toNat_be16 z1 z0]
    exact headerLatch_eq_some hi hs rfl rfl rfl rfl rfl

/-! ### The header of a SEND (R173), read back -/

theorem idBytes_eq_fieldBytes (wide : Bool) (v : DevId) : idBytes wide v = fieldBytes wide v.toNat := by
  have hhi : hiByte v = BitVec.ofNat 8 (v.toNat / 256) := by
    apply BitVec.eq_of_toNat_eq
    simp [hiByte, Nat.shiftRight_eq_div_pow]
  have hlo : loByte v = BitVec.ofNat 8 (v.toNat % 256) := by
    apply BitVec.eq_of_toNat_eq
    simp [loByte]
  rw [idBytes, fieldBytes, hhi, hlo]

/-- A size field is laid out as an ID of its own width (R91). -/
theorem szBytes_eq_fieldBytes (wide : Bool) (v : BitVec 16) : szBytes wide v = fieldBytes wide v.toNat :=
  idBytes_eq_fieldBytes wide v

theorem toNat_loByte_of_le {v : BitVec 16} (h : v.toNat ≤ 255) : (loByte v).toNat = v.toNat := by
  simp [loByte]
  omega

/-- A legal size minus one is a 16-bit field (R83). -/
theorem toNat_fieldOfSize {size : Size} (hmin : 1 ≤ size.toNat) (hmax : size.toNat ≤ 65536) :
    (fieldOfSize size).toNat = size.toNat - 1 := by
  have : (size - 1#17).toNat = size.toNat - 1 := by
    rw [BitVec.toNat_sub]
    simp
    omega
  rw [fieldOfSize, BitVec.toNat_setWidth, this]
  omega

/-- The bytes of a header are a header with these fields where `fmt` gives each field the room it needs. -/
theorem headerHas_headerBody {fmt fnc : Byte} {dest src : DevId} {size1 : BitVec 16} (c : Byte)
    (hids : fmtI16 fmt = false → dest.toNat ≤ 255 ∧ src.toNat ≤ 255) (hsize : fmtS16 fmt = false → size1.toNat ≤ 255) :
    HeaderHas (headerBody fmt dest src fnc size1 ++ [c]) dest src fnc size1.toNat := by
  refine ⟨SOH, fmt, c, ?_⟩
  cases hi : fmtI16 fmt <;> cases hs : fmtS16 fmt <;> rw [headerBody, hi, hs]
  case false.false =>
    obtain ⟨hd, hsrc⟩ := hids hi
    exact .inl ⟨hi, hs, _, _, _, rfl, (toNat_loByte_of_le hd).symm, (toNat_loByte_of_le hsrc).symm,
      (toNat_loByte_of_le (hsize hs)).symm⟩
  case false.true =>
    obtain ⟨hd, hsrc⟩ := hids hi
    exact .inr (.inl ⟨hi, hs, _, _, _, _, rfl, (toNat_loByte_of_le hd).symm, (toNat_loByte_of_le hsrc).symm,
      Encoding.toNat_eq_pair size1⟩)
  case true.false =>
    exact .inr (.inr (.inl ⟨hi, hs, _, _, _, _, _, rfl, Encoding.toNat_eq_pair dest, Encoding.toNat_eq_pair src,
      (toNat_loByte_of_le (hsize hs)).symm⟩))
  case true.true =>
    exact .inr (.inr (.inr ⟨hi, hs, _, _, _, _, _, _, rfl, Encoding.toNat_eq_pair dest, Encoding.toNat_eq_pair src,
      Encoding.toNat_eq_pair size1⟩))

section
variable (p : Params) (dest src : DevId) (size : Size)

/-- The bits of the number that R173 gives for `fmt`. -/
theorem fmtBits_ofNat (dir s16 i16 : Bool) :
    fmtS16 (BitVec.ofNat 8 (dir.toNat + 2 * s16.toNat + 4 * i16.toNat)) = s16 ∧
      fmtI16 (BitVec.ofNat 8 (dir.toNat + 2 * s16.toNat + 4 * i16.toNat)) = i16 := by
  revert dir s16 i16
  decide

theorem fmtS16_sendFmt : fmtS16 (sendFmt p dest src size) = sendS16 p size := (fmtBits_ofNat _ _ _).1

theorem fmtI16_sendFmt : fmtI16 (sendFmt p dest src size) = sendI16 dest src := (fmtBits_ofNat _ _ _).2

theorem sendI16_eq_wideIds : sendI16 dest src = wideIds dest src := by
  simp [sendI16, wideIds, gt_iff_lt]

theorem sendS16_eq_wideSize : sendS16 p size = wideSize p size := by
  unfold sendS16 wideSize thresholdNat thresholdOf
  cases p.threshold <;> rfl

end

/-- The header a legal SEND builds carries its operands: an ID above 255 widens both, and a size field above 255 has a
size above either threshold (R173, D9). -/
theorem headerHas_sendHeader (p : Params) (dest src : DevId) (fnc : Byte) {size : Size} (hmin : 1 ≤ size.toNat)
    (hmax : size.toNat ≤ 65536) : HeaderHas (sendHeader p dest src fnc size) dest src fnc (size.toNat - 1) := by
  have hfield := toNat_fieldOfSize hmin hmax
  rw [← hfield]
  refine headerHas_headerBody _ (fun hi => ?ids) (fun hs => ?size)
  case ids =>
    rw [fmtI16_sendFmt] at hi
    simpa [sendI16] using hi
  case size =>
    rw [fmtS16_sendFmt] at hs
    have hle : size.toNat ≤ thresholdNat p.threshold := by simpa [sendS16] using hs
    have hthreshold : thresholdNat p.threshold ≤ 256 := by cases p.threshold <;> decide
    omega

/-- A SEND's header is that of R173 computed in the naturals. -/
theorem sendHeader_eq_txHeaderOf (p : Params) (dest src : DevId) (fnc : Byte) {size : Size} (hmin : 1 ≤ size.toNat)
    (hmax : size.toNat ≤ 65536) : sendHeader p dest src fnc size = txHeaderOf p dest src fnc size := by
  have hbody : headerBody (sendFmt p dest src size) dest src fnc (fieldOfSize size) =
      txHeaderBody p dest src fnc size := by
    rw [headerBody, fmtI16_sendFmt, fmtS16_sendFmt, idBytes_eq_fieldBytes, idBytes_eq_fieldBytes, szBytes_eq_fieldBytes,
      toNat_fieldOfSize hmin hmax, sendFmt, sendI16_eq_wideIds, sendS16_eq_wideSize]
    rfl
  obtain ⟨-, -, hcks⟩ := Encoding.checksumByteUnique (txHeaderBody p dest src fnc size) 0#8
  rw [sendHeader, hbody, withCks, hcks, txHeaderOf]

/-- Settles O5: the header has the SEND's operands as its fields, so it is complete and R121 reads them from it. -/
theorem sentHeaderParsesBack : Obligations.SentHeaderParsesBack := by
  intro p dest src fnc size hmin hmax
  have hhas := headerHas_sendHeader p dest src fnc hmin hmax
  refine ⟨sum8_withCks _, headerComplete_of_headerHas hhas, ?_, sendHeader_eq_txHeaderOf p dest src fnc hmin hmax⟩
  rw [headerLatch_of_headerHas hhas, Nat.sub_add_cancel hmin, BitVec.ofNat_toNat, BitVec.setWidth_eq]

/-! ### The test after an append in `Header` (R120 to R122) -/

theorem sum8_eq_ofNat_sumNat (h : List Byte) : sum8 h = BitVec.ofNat 8 (sumNat h) :=
  BitVec.eq_of_toNat_eq (by simp [Encoding.toNat_sum8, sumNat])

theorem sum8_eq_zero_iff (h : List Byte) : sum8 h = 0#8 ↔ sumNat h = 0 := by
  rw [← Encoding.toNat_sum8, ← BitVec.toNat_inj]
  rfl

section
variable {s : State} {h : List Byte} (hbuf : s.buf = Memory.ofBytes h)
include hbuf

/-- Before the frame is complete nothing more happens. -/
theorem headerCheck_of_not_complete (hc : ¬ HeaderComplete h) : headerCheck s = .next s := by
  unfold headerCheck
  split
  · rfl
  · next h2 =>
    have h1 : 1 < h.length := by simpa [hbuf] using h2
    have hfmt : s.buf.read 1 = some h[1] := by simp [hbuf, h1]
    have hlen : s.buf.length ≠ hdrLen h[1] := fun e =>
      hc (headerComplete_iff.2 ⟨h[1], by simp [h1], by simpa [hbuf] using e⟩)
    rw [hfmt]
    exact if_neg hlen

/-- A complete frame is decided by its sum (R82). -/
theorem headerCheck_of_complete (hc : HeaderComplete h) :
    headerCheck s =
      if sumNat h = 0 then headerAccept s
      else .next (s.raise (.headerChecksum (BitVec.ofNat 8 (sumNat h)))) := by
  obtain ⟨fmt, hf, hl⟩ := headerComplete_iff.1 hc
  have hfmt : s.buf.read 1 = some fmt := by rw [hbuf, Memory.read_ofBytes, hf]
  have hlen : s.buf.length = hdrLen fmt := by rw [hbuf, Memory.length_ofBytes, hl]
  have h2 : ¬ s.buf.length < 2 := by
    have := (hdrLen_bounds fmt).1
    omega
  have hbytes : s.buf.bytes = h := by rw [hbuf, Memory.bytes_ofBytes]
  rw [headerCheck, if_neg h2, hfmt, withRead, if_pos hlen, hbytes, ← sum8_eq_ofNat_sumNat]
  simp only [sum8_eq_zero_iff]

theorem headerAccept_of_headerHas {did sid : DevId} {fnc : Byte} {field : Nat} (hh : HeaderHas h did sid fnc field) :
    headerAccept s = .next
      (((s.setLatches ⟨did, sid, fnc, BitVec.ofNat 17 (field + 1)⟩).emit ACK).closeFrame .headerComplete) := by
  rw [headerAccept, hbuf, headerLatch_of_headerHas hh]
  rfl

end

/-! ### A byte in `Header` -/

/-- The byte is taken and stored, and the test follows. -/
theorem execRxHeaderByte_of_ready {s : State} {b : Byte} {rest bs : List Byte} (hready : ParserReady s .header b rest)
    (hbuf : s.buf = Memory.ofBytes bs) (hl : bs.length < bufCap) :
    execRxHeaderByte b s = headerCheck ((s.taken b rest).setBuf (Memory.ofBytes (bs ++ [b]))) := by
  rw [execRxHeaderByte, IdleSelect.rxEvent_of_ready _ hready,
    IdleSelect.appendByte_of_ofBytes (s := s.taken b rest) b _ hbuf hl]

/-- A frame that is complete with further bytes is far below `BUF_CAP`. -/
theorem length_lt_bufCap {bs tail : List Byte} (hc : HeaderComplete (bs ++ tail)) : bs.length < bufCap := by
  have := length_le_of_headerComplete hc
  rw [List.length_append] at this
  simp only [bufCap]
  omega

/-- Settles O13: the test finds the frame not complete. -/
theorem headerByteStored : Obligations.HeaderByteStored := by
  intro s b rest bs hready hbuf hl hc
  exact (execRxHeaderByte_of_ready hready hbuf hl).trans (headerCheck_of_not_complete rfl hc)

/-- Settles O14: the frame is complete and sums to zero, and its fields are what `header_accept()` reads. -/
theorem goodHeaderLatched : Obligations.GoodHeaderLatched := by
  intro s b rest bs did sid fnc field hready hbuf hh hsum
  have hc := headerComplete_of_headerHas hh
  calc exec (.rxHeaderByte b) s
      = headerCheck ((s.taken b rest).setBuf (Memory.ofBytes (bs ++ [b]))) :=
        execRxHeaderByte_of_ready hready hbuf (length_lt_bufCap hc)
    _ = headerAccept ((s.taken b rest).setBuf (Memory.ofBytes (bs ++ [b]))) :=
        (headerCheck_of_complete rfl hc).trans (if_pos hsum)
    _ = _ := by
        rw [headerAccept_of_headerHas rfl hh]
        simp [State.taken, State.setBuf, State.setLatches, State.emit, State.closeFrame, State.setRxs]

/-- Settles O15: the frame is complete and does not sum to zero, so E1 is raised. -/
theorem badHeaderNaked : Obligations.BadHeaderNaked := by
  intro s b rest bs hready hbuf hc hsum
  calc exec (.rxHeaderByte b) s
      = headerCheck ((s.taken b rest).setBuf (Memory.ofBytes (bs ++ [b]))) :=
        execRxHeaderByte_of_ready hready hbuf (length_lt_bufCap hc)
    _ = .next (((s.taken b rest).setBuf (Memory.ofBytes (bs ++ [b]))).raise
          (.headerChecksum (BitVec.ofNat 8 (sumNat (bs ++ [b]))))) :=
        (headerCheck_of_complete rfl hc).trans (if_neg hsum)
    _ = _ := by simp [State.taken, State.setBuf, State.raise, State.emit, State.report, State.setRxs]

/-! ### A header frame, byte by byte (R102, R120; log 2) -/

/-- A header layout is a frame of the marker and at least one byte behind it. -/
theorem frame_of_isHeader {i : Instr} {h : List Byte} (hi : isHeader i = true) (he : encode i = .link h) :
    grainOf i = .frame ∧ ∃ b bs, h = SOH :: b :: bs := by
  cases i with
  | headerI8S8 | headerI8S16 | headerI16S8 | headerI16S16 =>
    cases he
    exact ⟨rfl, _, _, rfl⟩
  | _ => cases hi

theorem consumeSeq_singleton {b : Byte} {s : State} (hc : s.canConsume = true) :
    consumeSeq [b] s = consumeByte b s := by
  simp only [consumeSeq, hc, if_true]
  cases consumeByte b s <;> rfl

/-- The marker opens a header frame (R102). -/
theorem consumeByte_soh_eq_midFrame {s : State} {rest : List Byte} (h : TookByParser s .idle SOH rest) :
    consumeByte SOH s = .next (midFrame s .header [SOH] rest) := by
  obtain ⟨hq, ha, hb, hr⟩ := h
  calc consumeByte SOH s
      = execRxIdleSoh s := by rw [consumeByte, consumer_parser s ha hb, hr]; rfl
    _ = .next ((s.taken SOH rest).openFrame SOH .header) := rxEvent_enabled _ ha hb hr hq

section
variable {s : State} (ha : s.alive = true) (hb : s.busy = false)
include ha hb

theorem canConsume_midFrame (r : RxState) (stored rest : List Byte) :
    (midFrame s r stored rest).canConsume = true :=
  (canConsume_iff _).2 ⟨ha, .inl hb⟩

/-- A byte of a header frame is stored, and the test follows (R120). -/
theorem consumeByte_midFrame_header {stored : List Byte} (b : Byte) (rest : List Byte) (hl : stored.length < bufCap) :
    consumeByte b (midFrame s .header stored (b :: rest)) =
      headerCheck (midFrame s .header (stored ++ [b]) rest) := by
  calc consumeByte b (midFrame s .header stored (b :: rest))
      = execRxHeaderByte b (midFrame s .header stored (b :: rest)) := by
        rw [consumeByte, consumer_parser (midFrame s .header stored (b :: rest)) ha hb]; rfl
    _ = appendByte b headerCheck ((midFrame s .header stored (b :: rest)).taken b rest) :=
        rxEvent_enabled (s := midFrame s .header stored (b :: rest)) _ ha hb rfl rfl
    _ = _ := Encoding.appendByte_taken_midFrame b rest _ hl

/-- The bytes that complete a frame are stored one after the other, and the test after the last one is the first that finds
it complete. -/
theorem consumeSeq_midFrame_header (b : Byte) (bs : List Byte) {stored : List Byte} (rest : List Byte)
    (hc : HeaderComplete (stored ++ b :: bs)) :
    consumeSeq (b :: bs) (midFrame s .header stored (b :: bs ++ rest)) =
      headerCheck (midFrame s .header (stored ++ b :: bs) rest) := by
  induction bs generalizing b stored with
  | nil =>
    exact (consumeSeq_singleton (canConsume_midFrame ha hb _ _ _)).trans
      (consumeByte_midFrame_header ha hb b rest (length_lt_bufCap hc))
  | cons b' bs ih =>
    have hbyte := consumeByte_midFrame_header ha hb b (b' :: bs ++ rest) (length_lt_bufCap hc)
    rw [List.append_cons] at hc ⊢
    have hstored : headerCheck (midFrame s .header (stored ++ [b]) (b' :: bs ++ rest)) = .next _ :=
      headerCheck_of_not_complete rfl (not_headerComplete_of_append hc (List.cons_ne_nil b' bs))
    exact (consumeSeq_step (b' :: bs) (canConsume_midFrame ha hb _ _ _) (hbyte.trans hstored)).trans (ih b' hc)

end

/-- The answer to a whole header frame received in `Idle`. -/
theorem headerCheck_midFrame {s : State} {h : List Byte} (rest : List Byte) {did sid : DevId} {fnc : Byte} {field : Nat}
    (hr : s.rxs = .idle) (hh : HeaderHas h did sid fnc field) :
    headerCheck (midFrame s .header h rest) = .next
      (if sumNat h = 0 then
        { s with rxq := rest, mon := s.mon ++ rxTrace h ++ [(.tx, 0x06#8)], txOut := s.txOut ++ [0x06#8], buf := []
                 latches := some ⟨did, sid, fnc, BitVec.ofNat 17 (field + 1)⟩, rxs := .headerComplete }
      else
        { s with rxq := rest, mon := s.mon ++ rxTrace h ++ [(.tx, 0x15#8)], txOut := s.txOut ++ [0x15#8], buf := []
                 diag := s.diag ++ [.error (.headerChecksum (BitVec.ofNat 8 (sumNat h)))] }) := by
  rw [headerCheck_of_complete rfl (headerComplete_of_headerHas hh)]
  split
  · rw [headerAccept_of_headerHas rfl hh]
    rfl
  · rw [hr]
    rfl

/-- Settles O38: the marker opens the frame, the other bytes complete it, and the test decides it by the sum. -/
theorem headerFrameAckedOrNaked : Obligations.HeaderFrameAckedOrNaked := by
  intro s i h rest did sid fnc field ha hb hr hi he hh hq
  obtain ⟨hg, b, bs, rfl⟩ := frame_of_isHeader hi he
  have hc : s.canConsume = true := (canConsume_iff s).2 ⟨ha, .inl hb⟩
  calc exec i s
      = consumeSeq (SOH :: b :: bs) s := (Scope.exec_frame hg he s).trans (if_pos ⟨hc, rest, hq.symm⟩)
    _ = consumeSeq (b :: bs) (midFrame s .header [SOH] (b :: bs ++ rest)) :=
        consumeSeq_step _ hc (consumeByte_soh_eq_midFrame ⟨hq, ha, hb, hr⟩)
    _ = headerCheck (midFrame s .header (SOH :: b :: bs) rest) :=
        consumeSeq_midFrame_header ha hb b bs rest (headerComplete_of_headerHas hh)
    _ = _ := headerCheck_midFrame rest hr hh

end Sys2Proof.RxHeader
end

section
/-! PROOFS of the statements of 42_rx_data_dispatch.md: the data marker (R140), an enquiry after the ACK (R145), a data
frame received in `HeaderComplete` (R142 to R144) and a second request under the same header (R153). First the test after
an append in `Data`, then a data frame byte by byte, then dispatch. -/

namespace Sys2Proof.RxData

open Sys2Proof.Machine Sys2Proof.Stmt
open Encoding (midFrame)

/-! ### Single rows of the event table (R140, R145) -/

/-- Settles O16: the enabled row opens the frame. -/
theorem dataMarkerOpensData : Obligations.DataMarkerOpensData :=
  fun _ _ hready => IdleSelect.rxEvent_of_ready (fun s => .next (s.openFrame STX .data)) hready

/-- Settles O19: the enabled row emits one ACK after the taken byte. -/
theorem enquiryRepeatsAck : Obligations.EnquiryRepeatsAck := by
  intro s rest hready
  calc exec .rxAeEnq s
      = .next ((s.taken ENQ rest).emit ACK) := IdleSelect.rxEvent_of_ready (fun s => .next (s.emit ACK)) hready
    _ = _ := by simp [State.taken, State.emit]

/-! ### The test after an append in `Data` (R142 to R144) -/

section
variable {s : State} {l : HeaderLatch} {d : List Byte} (hlatch : s.latches = some l) (hbuf : s.buf = Memory.ofBytes d)
include hlatch hbuf

/-- Away from the declared size nothing more happens. -/
theorem dataCheck_of_not_whole (hlen : d.length ≠ l.size.toNat + 3) : dataCheck s = .next s := by
  have hno : s.buf.length ≠ l.size.toNat + 3 := by rwa [hbuf, Memory.length_ofBytes]
  rw [dataCheck, withLatch, hlatch]
  exact if_neg hno

/-- A frame of the declared size is decided by its sum (R82). -/
theorem dataCheck_of_whole (hlen : d.length = l.size.toNat + 3) :
    dataCheck s = .next
      (if sumNat d = 0 then (s.emit ACK).setRxs .awaitingEnd
      else s.raise (.dataChecksum (BitVec.ofNat 8 (sumNat d)))) := by
  have hwhole : s.buf.length = l.size.toNat + 3 := by rwa [hbuf, Memory.length_ofBytes]
  have hbytes : s.buf.bytes = d := by rw [hbuf, Memory.bytes_ofBytes]
  rw [dataCheck, withLatch, hlatch]
  simp only [hwhole, if_true, hbytes, RxHeader.sum8_eq_zero_iff, ← RxHeader.sum8_eq_ofNat_sumNat]
  split <;> rfl

end

/-! ### A data frame, byte by byte (R140, R142; log 2) -/

section
variable {s : State} (ha : s.alive = true) (hb : s.busy = false)
include ha hb

/-- While the parser consumes, a byte runs the row of its parse state (R43, R89). -/
theorem consumeByte_of_parser {b : Byte} {i : Instr} (hd : decodeEvent (.parser s.rxs) b = .instr i) :
    consumeByte b s = exec i s :=
  Encoding.consumeByte_of_decodeEvent ((consumer_parser s ha hb).symm ▸ hd)

/-- The marker opens a data frame (R140). -/
theorem consumeByte_stx_eq_midFrame {rest : List Byte} (hr : s.rxs = .headerComplete) (hq : s.rxq = STX :: rest) :
    consumeByte STX s = .next (midFrame s .data [STX] rest) :=
  (consumeByte_of_parser ha hb (i := .rxHcStx) (hr ▸ rfl)).trans (dataMarkerOpensData s rest ⟨ha, hb, hr, hq⟩)

/-- A byte of a data frame is stored, and the test follows (R142). -/
theorem consumeByte_midFrame_data {stored : List Byte} (b : Byte) (rest : List Byte) (hl : stored.length < bufCap) :
    consumeByte b (midFrame s .data stored (b :: rest)) = dataCheck (midFrame s .data (stored ++ [b]) rest) := by
  calc consumeByte b (midFrame s .data stored (b :: rest))
      = execRxDataByte b (midFrame s .data stored (b :: rest)) :=
        consumeByte_of_parser (s := midFrame s .data stored (b :: rest)) (i := .rxDataByte b) ha hb rfl
    _ = appendByte b dataCheck ((midFrame s .data stored (b :: rest)).taken b rest) :=
        rxEvent_enabled (s := midFrame s .data stored (b :: rest)) _ ha hb rfl rfl
    _ = _ := Encoding.appendByte_taken_midFrame b rest _ hl

/-- The bytes up to the declared size are stored one after the other, and the test after the last one is the first that
finds the frame whole. -/
theorem consumeSeq_midFrame_data {l : HeaderLatch} (hlatch : s.latches = some l) (hmax : l.size.toNat ≤ 65536)
    (b : Byte) (bs : List Byte) {stored : List Byte} (rest : List Byte)
    (hlen : (stored ++ b :: bs).length = l.size.toNat + 3) :
    consumeSeq (b :: bs) (midFrame s .data stored (b :: bs ++ rest)) =
      dataCheck (midFrame s .data (stored ++ b :: bs) rest) := by
  have hroom : stored.length < bufCap := by
    rw [List.length_append, List.length_cons] at hlen
    simp only [bufCap]
    omega
  induction bs generalizing b stored with
  | nil =>
    exact (RxHeader.consumeSeq_singleton (RxHeader.canConsume_midFrame ha hb _ _ _)).trans
      (consumeByte_midFrame_data ha hb b rest hroom)
  | cons b' bs ih =>
    have hbyte := consumeByte_midFrame_data ha hb b (b' :: bs ++ rest) hroom
    rw [List.append_cons] at hlen ⊢
    have hshort : (stored ++ [b]).length < l.size.toNat + 3 := by
      rw [← hlen, List.length_append (bs := b' :: bs)]
      exact Nat.lt_add_of_pos_right (Nat.succ_pos _)
    have hstored : dataCheck (midFrame s .data (stored ++ [b]) (b' :: bs ++ rest)) = .next _ :=
      dataCheck_of_not_whole hlatch rfl hshort.ne
    exact (consumeSeq_step (b' :: bs) (RxHeader.canConsume_midFrame ha hb _ _ _) (hbyte.trans hstored)).trans
      (ih b' hlen (by simp only [bufCap]; omega))

end

/-- The answer to a whole data frame received in `HeaderComplete`. -/
theorem dataCheck_midFrame {s : State} {l : HeaderLatch} {d : List Byte} (rest : List Byte)
    (hr : s.rxs = .headerComplete) (hlatch : s.latches = some l) (hlen : d.length = l.size.toNat + 3) :
    dataCheck (midFrame s .data d rest) = .next
      (if sumNat d = 0 then
        { s with rxq := rest, mon := s.mon ++ rxTrace d ++ [(.tx, 0x06#8)], txOut := s.txOut ++ [0x06#8]
                 buf := Memory.ofBytes d, rxs := .awaitingEnd }
      else
        { s with rxq := rest, mon := s.mon ++ rxTrace d ++ [(.tx, 0x15#8)], txOut := s.txOut ++ [0x15#8], buf := []
                 diag := s.diag ++ [.error (.dataChecksum (BitVec.ofNat 8 (sumNat d)))] }) := by
  rw [dataCheck_of_whole (s := midFrame s .data d rest) hlatch rfl hlen]
  split
  · rfl
  · rw [hr]
    rfl

/-- Settles O40: the marker opens the frame, the other bytes fill it to the declared size, and the test decides it by the
sum. -/
theorem dataFrameAckedOrNaked : Obligations.DataFrameAckedOrNaked := by
  intro s payload rest e c l ha hb hr hlatch hlen hmax hq
  have hc : s.canConsume = true := (canConsume_iff s).2 ⟨ha, .inl hb⟩
  have hsize : ([STX] ++ payload ++ [e, c]).length = l.size.toNat + 3 := by simp [hlen]
  obtain ⟨b, bs, htail⟩ : ∃ b bs, payload ++ [e, c] = b :: bs := List.exists_cons_of_ne_nil (by simp)
  have hframe : [STX] ++ payload ++ [e, c] = STX :: b :: bs := congrArg (STX :: ·) htail
  rw [hframe] at hq hsize ⊢
  calc exec (.data payload e c) s
      = consumeSeq (STX :: (payload ++ [e, c])) s := if_pos ⟨hc, rest, htail ▸ hq.symm⟩
    _ = consumeSeq (STX :: b :: bs) s := by rw [htail]
    _ = consumeSeq (b :: bs) (midFrame s .data [STX] (b :: bs ++ rest)) :=
        consumeSeq_step _ hc (consumeByte_stx_eq_midFrame ha hb hr hq)
    _ = dataCheck (midFrame s .data (STX :: b :: bs) rest) :=
        consumeSeq_midFrame_data ha hb hlatch hmax b bs rest hsize
    _ = _ := dataCheck_midFrame rest hr hlatch hsize

/-! ### Dispatch (R146, R150, R153) -/

/-- The end marker closes the frame and dispatches the bytes behind the marker, as many as the latched size (R146). -/
theorem execRxAeEot_of_ready {s : State} {rest d : List Byte} {l : HeaderLatch}
    (hready : ParserReady s .awaitingEnd EOT rest) (hlatch : s.latches = some l) (hbuf : s.buf = Memory.ofBytes d)
    (hlen : l.size.toNat + 1 ≤ d.length) :
    execRxAeEot s = .next
      (((s.taken EOT rest).closeFrame .headerComplete).dispatch l ((d.drop 1).take l.size.toNat)) := by
  have hpayload : s.buf.readSeq 1 l.size.toNat = some ((d.drop 1).take l.size.toNat) := by
    rw [hbuf, Memory.readSeq_ofBytes d 1 _ (by omega)]
  rw [execRxAeEot, IdleSelect.rxEvent_of_ready _ hready]
  simp [withLatch, hlatch, withRead, hpayload]

theorem dispatch_of_registered {l : HeaderLatch} (s : State) (payload : List Byte) (hreg : l.did ∈ s.cfg.reg) :
    s.dispatch l payload = s.openWindow ⟨l.did, l.sid, l.fnc, l.size, payload⟩ := by
  obtain ⟨-, h⟩ | ⟨hno, -⟩ := dispatch_cases s l payload
  · exact h
  · exact absurd hreg hno

/-- After an accepted data frame the EOT dispatches the frame's payload to a registered destination (R146, R150). -/
theorem execEot_of_dataFrame {s : State} {rest payload : List Byte} {e c : Byte} {l : HeaderLatch}
    (hready : ParserReady s .awaitingEnd EOT rest) (hlatch : s.latches = some l)
    (hbuf : s.buf = Memory.ofBytes ([STX] ++ payload ++ [e, c])) (hlen : payload.length = l.size.toNat)
    (hreg : l.did ∈ s.cfg.reg) :
    exec .eot s = .next
      (((s.taken EOT rest).closeFrame .headerComplete).openWindow ⟨l.did, l.sid, l.fnc, l.size, payload⟩) := by
  have ⟨ha, hb, hr, _⟩ := hready
  have hparser : decodeEvent (.parser s.rxs) EOT = .instr .rxAeEot := by rw [hr]; rfl
  have hpayload : (([STX] ++ payload ++ [e, c]).drop 1).take l.size.toNat = payload := by simp [← hlen]
  calc exec .eot s
      = execRxAeEot s := consumeByte_of_parser ha hb hparser
    _ = .next (((s.taken EOT rest).closeFrame .headerComplete).dispatch l payload) := by
        rw [execRxAeEot_of_ready hready hlatch hbuf (by simp [hlen]), hpayload]
    _ = _ := congrArg Host.Outcome.next (dispatch_of_registered _ payload hreg)

/-- Settles O23: the frame is accepted as any data frame under this header is, which leaves the parser in `AwaitingEnd`
with the frame in `BUF` and the latches as they were; so the EOT dispatches the new payload. -/
theorem pipelinedFollowUp : Obligations.PipelinedFollowUp := by
  intro s payload rest e c l ha hb hr hlatch hreg _ hmax hlen hsum hq
  have hdata := dataFrameAckedOrNaked s payload (EOT :: rest) e c l ha hb hr hlatch hlen hmax hq
  rw [if_pos hsum] at hdata
  exact ⟨_, _, hdata, rfl, execEot_of_dataFrame ⟨ha, hb, rfl, rfl⟩ hlatch rfl hlen hreg, rfl, rfl, rfl, rfl,
    hlatch, rfl⟩

end Sys2Proof.RxData
end

section
/-! PROOFS of the statements of 43_tx_send.md: the two ACKs of a SEND (R176, R179), the timeout (R178), and the retry bounds
(R183). A bound follows from `InRound`, which says where a SEND stands in round `n` of a phase: what enters a phase
establishes it for round 1, a wait without ACK takes it from each round to the next, and from the fourth to `SendFailed`. -/

namespace Sys2Proof.TxSend

open Sys2Proof.Machine Sys2Proof.Stmt

/-! ### The two ACKs (R176, R179) -/

/-- Settles O26: the enabled row sends the data frame after the taken byte and enters the data phase. -/
theorem headerAckSendsData : Obligations.HeaderAckSendsData := by
  intro s rest ⟨ha, ht, hq⟩
  exact txEvent_enabled (fun s => .next ((s.emitSeq s.txDat).enterPhase .txDataWait)) ha ht hq

/-- Settles O30: the enabled row emits one EOT after the taken byte and finishes the SEND. -/
theorem dataAckEndsSend : Obligations.DataAckEndsSend := by
  intro s rest ⟨ha, ht, hq⟩
  calc exec .txDataAck s
      = .next (((s.taken ACK rest).emit EOT).finishSend .ok) :=
        txEvent_enabled (fun s => .next ((s.emit EOT).finishSend .ok)) ha ht hq
    _ = _ := by simp [State.taken, State.emit, State.finishSend]

/-! ### A wait without ACK (R177, R178, R180 to R182) -/

/-- The unit that the sender's phase repeats: the header in `TxHdrWait`, else the data frame (R177, R178, R180). -/
def phaseUnit (s : State) : List Byte := if s.txs = .txHdrWait then s.txHdr else s.txDat

theorem phaseUnit_of_hdrWait {s : State} (h : s.txs = .txHdrWait) : phaseUnit s = s.txHdr := if_pos h

theorem phaseUnit_of_dataWait {s : State} (h : s.txs = .txDataWait) : phaseUnit s = s.txDat := if_neg (by simp [h])

/-- `retry_or_fail` as the rules write it (R181, R182). -/
theorem retryOrFail_eq_ite (s : State) (unit : List Byte) :
    s.retryOrFail unit =
      if s.txRound.toNat < 4 then
        { s with txRound := s.txRound + 1#3, txOut := s.txOut ++ unit, mon := s.mon ++ txTrace unit }
      else
        { s with txStatus := .fail, txs := .txIdle, statusOut := s.statusOut ++ [.fail]
                 diag := s.diag ++ [.error (.sendFailure s.txs)] } := by
  obtain ⟨hlt, e⟩ | ⟨hge, e⟩ := retryOrFail_cases s unit
  · rw [if_pos hlt, e]
    rfl
  · rw [if_neg (Nat.not_lt.2 hge), e]

/-- A timeout with nothing queued is reported, and the phase's unit goes into another round (R178). -/
theorem execTxTimeout_of_waiting {s : State} (ha : s.alive = true) (hq : s.rxq = []) (ht : s.txs ≠ .txIdle) :
    execTxTimeout s = .next ((s.report .noAnswerTimeout).retryOrFail (phaseUnit s)) := by
  rw [execTxTimeout, if_pos ⟨ha, hq⟩]
  cases hp : s.txs with
  | txIdle => exact absurd hp ht
  | txHdrWait => rw [phaseUnit_of_hdrWait hp]
  | txDataWait => rw [phaseUnit_of_dataWait hp]

/-- Settles O29: the round decides between the two ends of `retry_or_fail`. -/
theorem timeoutRetriesOrFails : Obligations.TimeoutRetriesOrFails := by
  intro s ha hq ht
  calc exec .txTimeout s
      = .next ((s.report .noAnswerTimeout).retryOrFail (phaseUnit s)) := execTxTimeout_of_waiting ha hq ht
    _ = _ := by
      rw [retryOrFail_eq_ite]
      simp [State.report, phaseUnit]

/-- Taking a byte and reporting it as no ACK changes `RXQ`, `MON` and `DIAG` only (R177, R180). -/
theorem noteAnswer_taken (s : State) (queue rest : List Byte) (b : Byte) :
    ∃ m d, (({ s with rxq := queue } : State).taken b rest).noteAnswer b = { s with rxq := rest, mon := m, diag := d } := by
  obtain ⟨r, hr⟩ := noteAnswer_eq (({ s with rxq := queue } : State).taken b rest) b
  exact ⟨_, _, hr⟩

/-- A wait without ACK ends in `retry_or_fail` of the phase's unit, whichever event ends it: before that only `RXQ`, `MON`
and `DIAG` have changed. -/
theorem waitFails_retryOrFail {s t : State} (h : WaitFails s t) :
    ∃ q m d, t = ({ s with rxq := q, mon := m, diag := d } : State).retryOrFail (phaseUnit s) := by
  obtain ⟨arrived, i, rfl | ⟨b, -, rfl | rfl⟩, hexec⟩ := h
  · obtain ⟨-, -, ⟨hp, rfl⟩ | ⟨hp, rfl⟩⟩ := execTxTimeout_next hexec
    · rw [phaseUnit_of_hdrWait (s := s) hp]
      exact ⟨_, _, _, rfl⟩
    · rw [phaseUnit_of_dataWait (s := s) hp]
      exact ⟨_, _, _, rfl⟩
  · obtain ⟨-, rest, ⟨-, -, hp⟩, rfl⟩ := execTxHdrOther_next hexec
    obtain ⟨m, d, hanswer⟩ := noteAnswer_taken s (s.rxq ++ arrived) rest b
    rw [hanswer, phaseUnit_of_hdrWait (s := s) hp]
    exact ⟨_, _, _, rfl⟩
  · obtain ⟨-, rest, ⟨-, -, hp⟩, rfl⟩ := execTxDataOther_next hexec
    obtain ⟨m, d, hanswer⟩ := noteAnswer_taken s (s.rxq ++ arrived) rest b
    rw [hanswer, phaseUnit_of_dataWait (s := s) hp]
    exact ⟨_, _, _, rfl⟩

/-! ### The rounds of a phase (R175, R176, R181) -/

/-- In the state `s` a SEND is in round `n` of the phase `p`: since the state `base` before the phase its unit was sent `n`
times and nothing else, and the SEND has not finished. -/
structure InRound (base : State) (p : TxState) (unit : List Byte) (n : Nat) (s : State) : Prop where
  phase : s.txs = p
  repeats : phaseUnit s = unit
  round : s.txRound.toNat = n
  sent : s.txOut = base.txOut ++ (List.replicate n unit).flatten
  txStatus : s.txStatus = base.txStatus
  statusOut : s.statusOut = base.statusOut
  alive : s.alive = true
  busy : s.busy = true

/-- The SEND has failed after its phase's unit was sent four times and nothing else (R182). -/
structure SendFailed (base : State) (unit : List Byte) (s : State) : Prop where
  phase : s.txs = .txIdle
  sent : s.txOut = base.txOut ++ (List.replicate 4 unit).flatten
  txStatus : s.txStatus = .fail
  statusOut : s.statusOut = base.statusOut ++ [.fail]
  alive : s.alive = true
  busy : s.busy = true

section
variable {base s t : State} {p : TxState} {unit : List Byte}

/-- Below round 4 a wait without ACK leads to the next round (R181). -/
theorem InRound.retry {n : Nat} (h : InRound base p unit n s) (hn : n < 4) (hw : WaitFails s t) :
    InRound base p unit (n + 1) t := by
  obtain ⟨q, m, d, rfl⟩ := waitFails_retryOrFail hw
  have hround : s.txRound.toNat < 4 := by rwa [h.round]
  rw [retryOrFail_eq_ite, if_pos hround]
  exact {
    phase := h.phase
    repeats := h.repeats
    round := by simp [BitVec.toNat_add, h.round]; omega
    sent := by simp [h.sent, h.repeats, List.replicate_succ']
    txStatus := h.txStatus
    statusOut := h.statusOut
    alive := h.alive
    busy := h.busy }

/-- In round 4 a wait without ACK ends the SEND (R182). -/
theorem InRound.fail (h : InRound base p unit 4 s) (hw : WaitFails s t) : SendFailed base unit t := by
  obtain ⟨q, m, d, rfl⟩ := waitFails_retryOrFail hw
  have hround : ¬ s.txRound.toNat < 4 := by simp [h.round]
  rw [retryOrFail_eq_ite, if_neg hround]
  exact {
    phase := rfl
    sent := h.sent
    txStatus := rfl
    statusOut := congrArg (· ++ [TxStatus.fail]) h.statusOut
    alive := h.alive
    busy := h.busy }

/-- A SEND begins with round 1 of its header (R175). -/
theorem inRound_of_cmdSend {dest src : DevId} {fnc : Byte} {size : Size} {bytes : List Byte}
    (h : exec (.cmdSend dest src fnc size bytes) s = .next t) :
    InRound s .txHdrWait (txHeaderOf s.cfg dest src fnc size) 1 t := by
  obtain ⟨ha, hb, -, hmin, hmax, -, rfl⟩ := execCmdSend_next h
  rw [← RxHeader.sendHeader_eq_txHeaderOf s.cfg dest src fnc hmin hmax]
  exact {
    phase := rfl
    repeats := phaseUnit_of_hdrWait rfl
    round := rfl
    sent := by simp
    txStatus := rfl
    statusOut := rfl
    alive := ha
    busy := hb }

/-- The header's ACK begins round 1 of the data frame (R176). -/
theorem inRound_of_hdrAck (hb : s.busy = true) (h : exec .txHdrAck s = .next t) : InRound s .txDataWait s.txDat 1 t := by
  obtain ⟨rest, ⟨-, ha, -⟩, rfl⟩ := execTxHdrAck_next h
  exact {
    phase := rfl
    repeats := phaseUnit_of_dataWait rfl
    round := rfl
    sent := by simp
    txStatus := rfl
    statusOut := rfl
    alive := ha
    busy := hb }

end

/-! ### The retry bounds (R183) -/

/-- Settles O31: the SEND is in round 1, three waits lead to round 4, and the last one ends it. -/
theorem headerRetryBound : Obligations.HeaderRetryBound := by
  intro s s0 s1 s2 s3 s4 dest src fnc size bytes hsend hw1 hw2 hw3 hw4 h
  have h0 : InRound s .txHdrWait h 1 s0 := inRound_of_cmdSend hsend
  have h1 := h0.retry (by decide) hw1
  have h2 := h1.retry (by decide) hw2
  have h3 := h2.retry (by decide) hw3
  have h4 := h3.fail hw4
  have hsent : s4.txOut = s.txOut ++ h ++ h ++ h ++ h := by simp [h4.sent, List.replicate]
  exact ⟨h0.phase, h1.phase, h2.phase, h3.phase, h4.phase, hsent, h3.txStatus, h4.txStatus, h4.statusOut, h4.alive,
    h4.busy⟩

/-- Settles O32: the ACK begins round 1 of the data phase, three waits lead to round 4, and the last one ends it. -/
theorem dataRetryBound : Obligations.DataRetryBound := by
  intro s s0 s1 s2 s3 s4 hbusy hack hw1 hw2 hw3 hw4
  have h0 := inRound_of_hdrAck hbusy hack
  have h3 := ((h0.retry (by decide) hw1).retry (by decide) hw2).retry (by decide) hw3
  have h4 := h3.fail hw4
  have hsent : s4.txOut = s.txOut ++ s.txDat ++ s.txDat ++ s.txDat ++ s.txDat := by simp [h4.sent, List.replicate]
  exact ⟨h3.phase, h4.phase, hsent, h3.txStatus, h4.txStatus, h4.statusOut, h4.alive, h4.busy⟩

end Sys2Proof.TxSend
end

section
/-! PROOFS of the statements of 60_exceptions.md: an out-of-band byte and its recovery action (R141, R204). -/

namespace Sys2Proof.Exceptions

open Sys2Proof.Machine Sys2Proof.Stmt

/-- Settles O17: not the data marker, so the default row is not excluded, and it raises E4 (R204). -/
theorem outOfBandByteSwallowed : Obligations.OutOfBandByteSwallowed := by
  intro s b rest hstx hready
  have hdefault : b ∉ [STX] := by simp [hstx]
  calc exec (.rxHcOther b) s
      = rxEvent .headerComplete b (fun s => .next (s.raise (.outOfBand b))) s := exceptBytes_of_notMem _ hdefault
    _ = .next ((s.taken b rest).raise (.outOfBand b)) := IdleSelect.rxEvent_of_ready _ hready
    _ = _ := by simp [State.taken, State.raise, State.report, State.setRxs]

end Sys2Proof.Exceptions
end

section
/-! SUPPORT of the proofs about the whole machine: what holds across every event or every consumed byte is lifted to every
instruction and every step (R10, R20; log 2). -/

namespace Sys2Proof.Lift

open Sys2Proof.Machine Sys2Proof.Stmt

/-! ### From events and bytes to instructions and steps -/

/-- An event that goes on was enabled (R11). -/
theorem enabled_of_exec {i : Instr} {s t : State} (hi : isEvent i = true) (h : exec i s = .next t) : Enabled i s := by
  by_contra hno
  rw [IdleSelect.disabledEventRefused i s hi hno] at h
  cases h

/-- A consumed byte is an event that carries this byte, and somebody consumed it (R43, R89). -/
theorem consumeByte_next {b : Byte} {s t : State} (h : consumeByte b s = .next t) :
    s.canConsume = true ∧ ∃ i, isEvent i = true ∧ i ≠ .envReset ∧ exec i s = .next t := by
  obtain ⟨i, hg, hd, hreset, -, e⟩ | ⟨-, e⟩ := consumeByte_cases b s
  · refine ⟨?_, i, decide_eq_true hg, hreset, e ▸ h⟩
    by_contra hc
    rw [StateRules.decodeEvent_of_noConsumer (Bool.eq_false_iff.2 hc)] at hd
    cases hd
  · rw [e] at h
    cases h

/-- What is not an event is a control byte or a frame of bytes (log 2). -/
theorem exec_next_of_not_event {i : Instr} {s t : State} (hi : isEvent i = false) (h : exec i s = .next t) :
    (∃ b, consumeByte b s = .next t) ∨ ∃ bs, consumeSeq bs s = .next t := by
  cases i with
  | sel | soh | stx | etx | eot | enq | ack | wait | nak => exact .inl ⟨_, h⟩
  | select | headerI8S8 | headerI8S16 | headerI16S8 | headerI16S16 | data => exact .inr ⟨_, (consumeFrame_next h).2.2⟩
  | _ => cases hi

/-- A relation that every consumed byte respects, reflexive and transitive, is respected by every instruction that is not
an event. Unlike in `exec_respects` nothing is asked of the commands. -/
theorem exec_respects_of_consumeByte {R : State → State → Prop} (hrefl : ∀ s, R s s)
    (htrans : ∀ a b c, R a b → R b c → R a c) (hbyte : ∀ b s t, consumeByte b s = .next t → R s t) {i : Instr}
    {s t : State} (hi : isEvent i = false) (h : exec i s = .next t) : R s t := by
  obtain ⟨b, hb⟩ | ⟨bs, hbs⟩ := exec_next_of_not_event hi h
  · exact hbyte b s t hb
  · clear h
    induction bs generalizing s with
    | nil =>
      cases hbs
      exact hrefl _
    | cons b bs ih =>
      obtain ⟨-, hstop⟩ | ⟨-, hgo⟩ := consumeSeq_cons b bs s
      · rw [hstop] at hbs
        cases hbs
        exact hrefl _
      · obtain ⟨u, hu, hrest⟩ := (hgo t).1 hbs
        exact htrans _ _ _ (hbyte b s u hu) (ih hrest)

/-- A relation that every instruction and the master's byte respect, and that does not look at the script of turns, is
respected by every step (R10, R20). -/
theorem step_respects {R : State → State → Prop} (hexec : ∀ i s t, exec i s = .next t → R s t)
    (harrive : ∀ s b, R s { s with rxq := s.rxq ++ [b] }) (hscript : ∀ s sc t, R (s.withScript sc) t → R s t)
    {s t : State} (h : step s = .next t) : R s t := by
  obtain ⟨b, sc, -, -, rfl⟩ | ⟨c, sc, -, h⟩ | ⟨g, sc, i, -, -, h⟩ | ⟨i, -, -, h⟩ := step_next h
  · exact hscript s sc _ (harrive (s.withScript sc) b)
  · exact hscript s sc t (hexec _ (s.withScript sc) t h)
  · exact hscript s sc t (hexec i (s.withScript sc) t h)
  · exact hexec i s t h

end Sys2Proof.Lift
end

section
/-! PROOFS of the statements about the invariant of 10_state.md section 7 (R40): it holds at reset, every step keeps it, and
under it no step faults or reads an unwritten latch. First the operations, then the events, then steps. -/

namespace Sys2Proof.Invariant

open Sys2Proof.Machine Sys2Proof.Stmt Sys2Proof.Lift Sys2Proof.Encoding

/-! ### R40 items 1 to 6, one parse state each -/

section
variable {s : State}

theorem parserInv_idle_iff (hr : s.rxs = .idle) : s.parserInv ↔ s.buf = [] := by
  simp only [State.parserInv, hr]

theorem parserInv_select_iff (hr : s.rxs = .select) :
    s.parserInv ↔ 1 ≤ s.buf.length ∧ s.buf.length ≤ 3 ∧ s.buf.read 0 = some SEL := by
  simp only [State.parserInv, hr]

theorem parserInv_header_iff (hr : s.rxs = .header) :
    s.parserInv ↔ 1 ≤ s.buf.length ∧ s.buf.read 0 = some SOH ∧ s.buf.length ≤ 9 ∧
      ∀ fmt, s.buf.read 1 = some fmt → s.buf.length + 1 ≤ hdrLen fmt := by
  simp only [State.parserInv, hr]

theorem parserInv_headerComplete_iff (hr : s.rxs = .headerComplete) : s.parserInv ↔ s.buf = [] ∧ s.latchesOk := by
  simp only [State.parserInv, hr]

theorem parserInv_data_iff (hr : s.rxs = .data) :
    s.parserInv ↔ 1 ≤ s.buf.length ∧ s.buf.read 0 = some STX ∧ s.latchesOk ∧
      ∀ l, s.latches = some l → s.buf.length ≤ l.size.toNat + 2 := by
  simp only [State.parserInv, hr]

theorem parserInv_awaitingEnd_iff (hr : s.rxs = .awaitingEnd) :
    s.parserInv ↔ sum8 s.buf.bytes = 0#8 ∧ s.latchesOk ∧
      ∀ l, s.latches = some l → s.buf.length = l.size.toNat + 3 := by
  simp only [State.parserInv, hr]

end

/-- Settles O42: nothing is received, nothing is latched, no SEND and no window. -/
theorem invariantAtReset : Obligations.InvariantAtReset where
  wf := Memory.wf_nil
  size := fun _ h => nomatch h
  parser := fun _ => (parserInv_idle_iff rfl).2 rfl
  sender := fun _ h => absurd rfl h
  window := fun _ h => nomatch h

/-! ### Operations that keep the invariant wherever they are used -/

section
variable {s : State} (hinv : s.Inv)
include hinv

theorem inv_taken (b : Byte) (rest : List Byte) : (s.taken b rest).Inv :=
  ⟨hinv.wf, hinv.size, hinv.parser, hinv.sender, hinv.window⟩

theorem inv_emit (b : Byte) : (s.emit b).Inv := ⟨hinv.wf, hinv.size, hinv.parser, hinv.sender, hinv.window⟩

theorem inv_report (r : Report) : (s.report r).Inv := ⟨hinv.wf, hinv.size, hinv.parser, hinv.sender, hinv.window⟩

theorem inv_noteAnswer (b : Byte) : (s.noteAnswer b).Inv := by
  obtain ⟨r, e⟩ := noteAnswer_eq s b
  exact e ▸ inv_report hinv r

/-- The end of a SEND leaves nothing for item 7 to say. -/
theorem inv_finishSend (r : TxStatus) : (s.finishSend r).Inv :=
  ⟨hinv.wf, hinv.size, hinv.parser, fun _ h => absurd rfl h, hinv.window⟩

/-- Another round is at most the fourth, because below it the rounds are 1 to 3 (R181). -/
theorem inv_retryOrFail (unit : List Byte) : (s.retryOrFail unit).Inv := by
  obtain ⟨hlt, e⟩ | ⟨-, e⟩ := retryOrFail_cases s unit
  · rw [e]
    refine ⟨hinv.wf, hinv.size, hinv.parser, fun ha ht => ?_, hinv.window⟩
    obtain ⟨hbusy, hmin, -, hhdr, hdat⟩ := hinv.sender ha ht
    have hround : (s.txRound + 1#3).toNat = s.txRound.toNat + 1 := by
      rw [BitVec.toNat_add]
      simp
      omega
    exact ⟨hbusy, hround ▸ Nat.le_add_left 1 _, hround ▸ hlt, hhdr, hdat⟩
  · rw [e]
    exact ⟨hinv.wf, hinv.size, hinv.parser, fun _ h => absurd rfl h, hinv.window⟩

/-- A SEND goes on to its next phase in round 1 with the same frames (R176). -/
theorem inv_enterDataWait (ha : s.alive = true) (ht : s.txs ≠ .txIdle) : (s.enterPhase .txDataWait).Inv := by
  obtain ⟨hbusy, -, -, hhdr, hdat⟩ := hinv.sender ha ht
  exact ⟨hinv.wf, hinv.size, hinv.parser, fun _ _ => ⟨hbusy, le_rfl, Nat.le_add_left 1 3, hhdr, hdat⟩, hinv.window⟩

/-- Of a dead block R40 says nothing but what holds of `BUF` and the latches at all times. -/
theorem inv_die : s.die.Inv := by
  obtain ⟨-, e⟩ | ⟨-, e⟩ := die_cases s <;> rw [e] <;>
    exact ⟨hinv.wf, hinv.size, (fun h => nomatch h), (fun h => nomatch h), fun h => nomatch h⟩

/-- The frames of a SEND sum to zero by their checksums (R81, R173, R174). -/
theorem inv_cmdSend {dest src : DevId} {fnc : Byte} {size : Size} {bytes : List Byte} {t : State}
    (h : execCmdSend dest src fnc size bytes s = .next t) : t.Inv := by
  obtain ⟨-, hb, -, -, -, -, rfl⟩ := execCmdSend_next h
  exact ⟨hinv.wf, hinv.size, hinv.parser,
    fun _ _ => ⟨hb, le_rfl, Nat.le_add_left 1 3, sum8_withCks _, sum8_withCks _⟩, hinv.window⟩

theorem inv_cmdDone {t : State} (h : execCmdDone s = .next t) : t.Inv := by
  obtain ⟨-, -, ht, rfl⟩ := execCmdDone_next h
  exact ⟨hinv.wf, hinv.size, hinv.parser, fun _ hno => absurd ht hno, fun _ h => nomatch h⟩

end

/-! ### The receive events -/

/-- Every latched size was a header's field plus one (R78, R121). -/
theorem size_range_of_headerLatch {m : Memory} {l : HeaderLatch} (h : headerLatch m = some l) :
    1 ≤ l.size.toNat ∧ l.size.toNat ≤ 65536 := by
  unfold headerLatch at h
  split at h
  · cases h
  · dsimp only at h
    split at h
    · cases h
      exact sizeOfField_range _
    · cases h

section
variable {s t : State} {r : RxState} {b : Byte} {rest : List Byte} (hinv : s.Inv) (hrow : TookByParser s r b rest)
include hinv hrow

/-- While the parser consumes no SEND is in progress, so of its events items 1 to 6 and 8 are to be shown. -/
theorem inv_of_received (htxs : t.txs = s.txs) (hwf : t.buf.wf)
    (hsize : ∀ l, t.latches = some l → 1 ≤ l.size.toNat ∧ l.size.toNat ≤ 65536) (hparser : t.parserInv)
    (hwindow : t.windowInv) : t.Inv := by
  obtain ⟨-, ha, hb, -⟩ := hrow
  refine ⟨hwf, hsize, fun _ => hparser, fun _ ht => ?_, fun _ => hwindow⟩
  obtain ⟨hbusy, -⟩ := hinv.sender ha (htxs ▸ ht)
  cases hb.symm.trans hbusy

/-- A receive event that leaves the window closed. -/
theorem inv_of_received_closed (htxs : t.txs = s.txs) (hbusy : t.busy = s.busy) (hwf : t.buf.wf)
    (hsize : ∀ l, t.latches = some l → 1 ≤ l.size.toNat ∧ l.size.toNat ≤ 65536) (hparser : t.parserInv) : t.Inv := by
  have ⟨_, _, hb, _⟩ := hrow
  exact inv_of_received hinv hrow htxs hwf hsize hparser fun h => by cases (hbusy.trans hb).symm.trans h

theorem parserInv_of_took : s.parserInv := by
  obtain ⟨-, ha, -, -⟩ := hrow
  exact hinv.parser ha

/-- A byte that is only stored (R57). -/
theorem inv_of_stored (hparser : ((s.taken b rest).setBuf (s.buf.append b)).parserInv) :
    ((s.taken b rest).setBuf (s.buf.append b)).Inv :=
  inv_of_received_closed hinv hrow rfl rfl (Memory.wf_append hinv.wf b) hinv.size hparser

/-- A frame that ends in `Idle` (R104, R122). -/
theorem inv_of_idle (htxs : t.txs = s.txs) (hbusy : t.busy = s.busy) (hlatches : t.latches = s.latches)
    (hr : t.rxs = .idle) (hbuf : t.buf = []) : t.Inv :=
  inv_of_received_closed hinv hrow htxs hbusy (hbuf ▸ Memory.wf_nil) (hlatches ▸ hinv.size)
    ((parserInv_idle_iff hr).2 hbuf)

end

section
variable {s t : State} {b : Byte} (hinv : s.Inv)
include hinv

/-- A byte of a Select frame is the second or third, or ends it (items 1 and 2). -/
theorem inv_selectByte (h : execRxSelectByte b s = .next t) : t.Inv := by
  obtain ⟨rest, hrow, -, hcase⟩ := execRxSelectByte_next h
  have ⟨_, _, _, hr⟩ := hrow
  obtain ⟨hmin, hmax, hmark⟩ := (parserInv_select_iff hr).1 (parserInv_of_took hinv hrow)
  obtain ⟨hlen, rfl⟩ | ⟨-, _, -, ⟨-, rfl⟩ | ⟨-, rfl⟩⟩ := hcase
  · refine inv_of_stored hinv hrow ?_
    have hlen' : (s.buf.append b).length ≤ 3 := by
      rw [Memory.length_append]
      omega
    exact (parserInv_select_iff (s := (s.taken b rest).setBuf _) hr).2
      ⟨by simp, hlen', (Memory.read_append_below hinv.wf b hmin).trans hmark⟩
  · exact inv_of_idle hinv hrow rfl rfl rfl rfl rfl
  · exact inv_of_idle hinv hrow rfl rfl rfl rfl rfl

/-- A byte of a header is stored below the length its `fmt` gives, or ends it with latches a header can declare (items 1, 3
and 4). -/
theorem inv_headerByte (h : execRxHeaderByte b s = .next t) : t.Inv := by
  obtain ⟨rest, hrow, -, hcase⟩ := execRxHeaderByte_next h
  have ⟨_, _, _, hr⟩ := hrow
  obtain ⟨hmin, hmark, -, hshort⟩ := (parserInv_header_iff hr).1 (parserInv_of_took hinv hrow)
  obtain ⟨rfl, hopen⟩ | ⟨fmt, -, -, ⟨-, l, hl, rfl⟩ | ⟨-, rfl⟩⟩ := hcase
  · refine inv_of_stored hinv hrow ?_
    obtain ⟨fmt, hfmt, hne⟩ := hopen.resolve_left (by omega)
    have hbelow : s.buf.length + 2 ≤ hdrLen fmt := by
      obtain h1 | h1 := hmin.eq_or_lt
      · have := (hdrLen_bounds fmt).1
        omega
      · have := hshort fmt ((Memory.read_append_below hinv.wf b h1).symm.trans hfmt)
        omega
    have hmax := (hdrLen_bounds fmt).2
    refine (parserInv_header_iff (s := (s.taken b rest).setBuf _) hr).2
      ⟨by simp, (Memory.read_append_below hinv.wf b hmin).trans hmark, ?_, fun fmt' hfmt' => ?_⟩
    · change (s.buf.append b).length ≤ 9
      rw [Memory.length_append]
      omega
    · obtain rfl : fmt = fmt' := Option.some.inj (hfmt.symm.trans hfmt')
      change (s.buf.append b).length + 1 ≤ hdrLen fmt
      rw [Memory.length_append]
      omega
  · have hrange := size_range_of_headerLatch hl
    exact inv_of_received_closed hinv hrow rfl rfl Memory.wf_nil (by rintro _ ⟨⟩; exact hrange)
      ((parserInv_headerComplete_iff rfl).2 ⟨rfl, l, rfl, hrange⟩)
  · exact inv_of_idle hinv hrow rfl rfl rfl rfl rfl

/-- A byte of a data frame is stored below the declared size plus 3, or ends it with the sum's answer (items 4 to 6). -/
theorem inv_dataByte (h : execRxDataByte b s = .next t) : t.Inv := by
  obtain ⟨rest, l, hrow, -, hlatch, hcase⟩ := execRxDataByte_next h
  have ⟨_, _, _, hr⟩ := hrow
  obtain ⟨hmin, hmark, hok, hshort⟩ := (parserInv_data_iff hr).1 (parserInv_of_took hinv hrow)
  have hlen := hshort l hlatch
  obtain ⟨hne, rfl⟩ | ⟨heq, ⟨hsum, rfl⟩ | ⟨-, rfl⟩⟩ := hcase
  · refine inv_of_stored hinv hrow ?_
    refine (parserInv_data_iff (s := (s.taken b rest).setBuf _) hr).2
      ⟨by simp, (Memory.read_append_below hinv.wf b hmin).trans hmark, hok, fun l' hl' => ?_⟩
    obtain rfl : l = l' := Option.some.inj (hlatch.symm.trans hl')
    change (s.buf.append b).length ≤ l.size.toNat + 2
    rw [Memory.length_append]
    omega
  · refine inv_of_received_closed hinv hrow rfl rfl (Memory.wf_append hinv.wf b) hinv.size ?_
    refine (parserInv_awaitingEnd_iff rfl).2 ⟨by simpa using hsum, hok, fun l' hl' => ?_⟩
    obtain rfl : l = l' := Option.some.inj (hlatch.symm.trans hl')
    change (s.buf.append b).length = l.size.toNat + 3
    rw [Memory.length_append, heq]
  · exact inv_of_received_closed hinv hrow rfl rfl Memory.wf_nil hinv.size
      ((parserInv_headerComplete_iff rfl).2 ⟨rfl, hok⟩)

/-- The EOT leaves `HeaderComplete` under the same latches, with the window open or closed (items 4 and 8). -/
theorem inv_eot (h : execRxAeEot s = .next t) : t.Inv := by
  obtain ⟨rest, l, payload, hrow, hlatch, -, rfl⟩ := execRxAeEot_next h
  have hok : s.latchesOk := ⟨l, hlatch, hinv.size l hlatch⟩
  obtain ⟨-, e⟩ | ⟨-, e⟩ := dispatch_cases ((s.taken EOT rest).closeFrame .headerComplete) l payload <;> rw [e] <;>
    exact inv_of_received hinv hrow rfl Memory.wf_nil hinv.size ((parserInv_headerComplete_iff rfl).2 ⟨rfl, hok⟩)
      fun _ => rfl

/-- The data marker opens a frame under written latches (item 5). -/
theorem inv_stx (h : execRxHcStx s = .next t) : t.Inv := by
  obtain ⟨rest, hrow, rfl⟩ := execRxHcStx_next h
  have ⟨_, _, _, hr⟩ := hrow
  obtain ⟨-, hok⟩ := (parserInv_headerComplete_iff hr).1 (parserInv_of_took hinv hrow)
  exact inv_of_received_closed hinv hrow rfl rfl (Memory.wf_single STX) hinv.size
    ((parserInv_data_iff rfl).2 ⟨le_rfl, rfl, hok, fun l _ => Nat.le_add_left 1 _⟩)

/-- An out-of-band byte leaves `Idle` with the buffer that `HeaderComplete` had, the empty one (items 1 and 4). -/
theorem inv_hcOther (h : execRxHcOther b s = .next t) : t.Inv := by
  obtain ⟨rest, hrow, rfl⟩ := execRxHcOther_next h
  have ⟨_, _, _, hr⟩ := hrow
  obtain ⟨hempty, -⟩ := (parserInv_headerComplete_iff hr).1 (parserInv_of_took hinv hrow)
  exact inv_of_idle hinv hrow rfl rfl rfl rfl hempty

end

/-! ### Every step keeps the invariant -/

theorem inv_of_event {i : Instr} {s t : State} (hi : grainOf i = .event) (h : exec i s = .next t) (hinv : s.Inv) :
    t.Inv := by
  cases i with
  | rxIdleSel =>
    obtain ⟨rest, hrow, rfl⟩ := execRxIdleSel_next h
    exact inv_of_received_closed hinv hrow rfl rfl (Memory.wf_single SEL) hinv.size
      ((parserInv_select_iff rfl).2 ⟨le_rfl, Nat.le_add_left 1 2, rfl⟩)
  | rxIdleSoh =>
    obtain ⟨rest, hrow, rfl⟩ := execRxIdleSoh_next h
    exact inv_of_received_closed hinv hrow rfl rfl (Memory.wf_single SOH) hinv.size
      ((parserInv_header_iff rfl).2 ⟨le_rfl, rfl, Nat.le_add_left 1 8, fun _ h => nomatch h⟩)
  | rxIdleOther b => obtain ⟨rest, -, rfl⟩ := execRxIdleOther_next h; exact inv_report (inv_taken hinv b rest) _
  | rxSelectByte b => exact inv_selectByte hinv h
  | rxHeaderByte b => exact inv_headerByte hinv h
  | rxHcStx => exact inv_stx hinv h
  | rxHcOther b => exact inv_hcOther hinv h
  | rxDataByte b => exact inv_dataByte hinv h
  | rxAeEnq => obtain ⟨rest, -, rfl⟩ := execRxAeEnq_next h; exact inv_emit (inv_taken hinv ENQ rest) ACK
  | rxAeEot => exact inv_eot hinv h
  | rxAeOther b => obtain ⟨rest, -, rfl⟩ := execRxAeOther_next h; exact inv_report (inv_taken hinv b rest) _
  | cmdDone => exact inv_cmdDone hinv h
  | cmdSend => exact inv_cmdSend hinv h
  | txHdrAck =>
    obtain ⟨rest, ⟨-, ha, ht⟩, rfl⟩ := execTxHdrAck_next h
    have hsent : ((s.taken ACK rest).emitSeq s.txDat).Inv :=
      ⟨hinv.wf, hinv.size, hinv.parser, hinv.sender, hinv.window⟩
    exact inv_enterDataWait hsent ha (ne_of_eq_of_ne ht (by decide))
  | txHdrOther b =>
    obtain ⟨-, rest, -, rfl⟩ := execTxHdrOther_next h
    exact inv_retryOrFail (inv_noteAnswer (inv_taken hinv b rest) b) _
  | txTimeout =>
    obtain ⟨-, -, ⟨-, rfl⟩ | ⟨-, rfl⟩⟩ := execTxTimeout_next h
    · exact inv_retryOrFail (inv_report hinv _) _
    · exact inv_retryOrFail (inv_report hinv _) _
  | txDataAck =>
    obtain ⟨rest, -, rfl⟩ := execTxDataAck_next h
    exact inv_finishSend (inv_emit (inv_taken hinv ACK rest) EOT) .ok
  | txDataOther b =>
    obtain ⟨-, rest, -, rfl⟩ := execTxDataOther_next h
    exact inv_retryOrFail (inv_noteAnswer (inv_taken hinv b rest) b) _
  | envLinkFail =>
    obtain ⟨-, rfl⟩ := execEnvLinkFail_next h
    exact inv_die hinv
  | envReset =>
    cases h
    exact ⟨Memory.wf_nil, (fun _ h => nomatch h), fun _ => (parserInv_idle_iff rfl).2 rfl, fun _ h => absurd rfl h,
      fun _ h => nomatch h⟩
  | _ => cases hi

theorem inv_of_exec {i : Instr} {s t : State} (h : exec i s = .next t) (hinv : s.Inv) : t.Inv :=
  exec_respects (R := fun s t => s.Inv → t.Inv) (fun _ => id) (fun _ _ _ hab hbc ha => hbc (hab ha))
    (fun _ _ _ => inv_of_event) i s t h hinv

theorem inv_withScript {s : State} (sc : List Turn) (hinv : s.Inv) : (s.withScript sc).Inv :=
  ⟨hinv.wf, hinv.size, hinv.parser, hinv.sender, hinv.window⟩

theorem inv_arrive {s : State} (b : Byte) (hinv : s.Inv) : ({ s with rxq := s.rxq ++ [b] } : State).Inv :=
  ⟨hinv.wf, hinv.size, hinv.parser, hinv.sender, hinv.window⟩

/-- Settles O43: every event keeps the invariant, so every instruction does, and neither the master's byte nor the script
is in it. -/
theorem stepKeepsInvariant : Obligations.StepKeepsInvariant := fun _ _ hinv h =>
  step_respects (R := fun s t => s.Inv → t.Inv) (fun _ _ _ => inv_of_exec) (fun _ => inv_arrive)
    (fun _ sc _ h hinv => h (inv_withScript sc hinv)) h hinv

/-! ### Under the invariant nothing that is consumed stops the block -/

/-- An answer that is neither a fault nor the refusal of an unwritten latch. -/
def Unstopped (r : Result) : Prop := (∀ f, r ≠ .fault f) ∧ r ≠ .refused .unwrittenLatch

theorem unstopped_of_goesOn {r : Result} (h : GoesOn r) : Unstopped r := by
  obtain ⟨t, rfl⟩ := h
  exact ⟨(fun _ h => nomatch h), fun h => nomatch h⟩

theorem unstopped_refused {e : Refusal} (h : e ≠ .unwrittenLatch) : Unstopped (.refused e) :=
  ⟨(fun _ h => nomatch h), fun he => h (Host.Outcome.refused.inj he)⟩

theorem unstopped_ite {p : Prop} [Decidable p] {r r' : Result} (h : Unstopped r) (h' : Unstopped r') :
    Unstopped (if p then r else r') := by
  split
  · exact h
  · exact h'

theorem unstopped_next (t : State) : Unstopped (.next t) := unstopped_of_goesOn (goesOn_next t)

/-- The commands read neither `BUF` nor the latches: they go on or are not legal (R37, R38). -/
theorem unstopped_exec_command (c : Command) (s : State) : Unstopped (exec (decodeCommand c) s) := by
  cases c with
  | done | linkFail => exact unstopped_ite (unstopped_next _) (unstopped_refused (by decide))
  | send =>
    exact unstopped_ite (unstopped_ite (unstopped_next _) (unstopped_refused (by decide)))
      (unstopped_refused (by decide))
  | timeout =>
    refine unstopped_ite ?_ (unstopped_refused (by decide))
    cases s.txs with
    | txIdle => exact unstopped_refused (by decide)
    | txHdrWait | txDataWait => exact unstopped_next _
  | reset => exact unstopped_next _

section
variable {s : State} (hinv : s.Inv)
include hinv

/-- Bytes at the head of `RXQ` are consumed one after the other, each in a state of the invariant, or wait. -/
theorem goesOn_consumeSeq {bs : List Byte} (hq : bs <+: s.rxq) : GoesOn (consumeSeq bs s) := by
  induction bs generalizing s with
  | nil => exact goesOn_next s
  | cons b bs ih =>
    cases hc : s.canConsume with
    | false =>
      rw [consumeSeq, hc]
      exact goesOn_next s
    | true =>
      obtain ⟨rest, hrest⟩ := hq
      obtain ⟨u, hu⟩ := goesOn_consumeByte hinv hc hrest.symm
      obtain ⟨-, i, -, -, hi⟩ := consumeByte_next hu
      rw [consumeSeq_step bs hc hu]
      exact ih (inv_of_exec hi hinv) ⟨rest, by simpa [← hrest] using consumeByte_head hu⟩

/-- What the framer fetches goes on, at every grain. -/
theorem goesOn_exec_of_fetch {g : Grain} {i : Instr} (h : s.fetch g = .instr i) : GoesOn (exec i s) := by
  obtain ⟨hc, hd⟩ := Scope.fetch_eq_instr_iff.1 h
  cases hq : s.rxq with
  | nil =>
    rw [hq] at hd
    cases g <;> cases hd
  | cons b rest =>
    have hbyte := goesOn_consumeByte hinv hc hq
    cases g with
    | event =>
      rw [hq] at hd
      rwa [← consumeByte_of_decodeEvent hd]
    | control =>
      rw [hq] at hd
      rwa [exec_of_mem_controlBytes (mem_controlBytes_of_decodeControl hd)]
    | frame =>
      obtain ⟨-, hg, front, tail, hfront, happ⟩ := Scope.frontIsFrame_of_decode hd
      have hprefix : front <+: s.rxq := ⟨tail, happ.symm⟩
      rw [Scope.exec_frame hg hfront, consumeFrame, if_pos ⟨hc, hprefix⟩]
      exact goesOn_consumeSeq hinv hprefix

theorem unstopped_turn (u : Turn) : Unstopped (s.turn u) := by
  cases u with
  | arrive b => exact unstopped_ite (unstopped_next _) (unstopped_refused (by decide))
  | command c => exact unstopped_exec_command c s
  | receive g =>
    cases hf : s.fetch g with
    | instr i =>
      rw [Scope.turn_receive_of_fetch hf]
      exact unstopped_of_goesOn (goesOn_exec_of_fetch hinv hf)
    | reject why =>
      simp only [State.turn, hf]
      exact unstopped_refused (by simp)

end

/-- Settles O44: what the framer fetches goes on, and the other agents' turns read neither `BUF` nor the latches. -/
theorem invariantExcludesStops : Obligations.InvariantExcludesStops := by
  intro s hinv
  change Unstopped (step s)
  cases hs : s.script with
  | nil =>
    rw [Scope.step_of_emptyScript hs]
    exact unstopped_turn hinv _
  | cons u sc =>
    rw [Scope.step_of_script hs]
    exact unstopped_turn (inv_withScript sc hinv) u

end Sys2Proof.Invariant
end

section
/-! PROOFS of the statements about what every step does on the link and with the parameters: `TXOUT` and `RXQ` are streams
(R26, R27, R60), `MON` records what is sent (R9, R217), and the parameters stay (R34). One lemma says it of every event. -/

namespace Sys2Proof.Streams

open Sys2Proof.Machine Sys2Proof.Stmt Sys2Proof.Lift

/-! ### What `MON` records as sent (R217) -/

@[simp] theorem sentBytes_append (m m' : List (Dir × Byte)) : sentBytes (m ++ m') = sentBytes m ++ sentBytes m' := by
  simp [sentBytes]

@[simp] theorem sentBytes_rxTrace (bs : List Byte) : sentBytes (rxTrace bs) = [] := by
  simp [sentBytes, rxTrace]

@[simp] theorem sentBytes_txTrace (bs : List Byte) : sentBytes (txTrace bs) = bs := by
  simp [sentBytes, txTrace, List.filter_map, Function.comp_def]

/-! ### The streams and the parameters (R26, R27, R34) -/

/-- From `s` to `t` the parameters stay, `RXQ` loses a front part, and what is put at the end of `TXOUT` is recorded in `MON`
as sent. -/
structure Flows (s t : State) : Prop where
  params : t.cfg = s.cfg
  queue : t.rxq <:+ s.rxq
  sent : ∃ out, t.txOut = s.txOut ++ out ∧ sentBytes t.mon = sentBytes s.mon ++ out

/-- The part of the state that `Flows` speaks of. -/
def link (s : State) : Params × List Byte × List Byte × List (Dir × Byte) := (s.cfg, s.rxq, s.txOut, s.mon)

theorem Flows.refl (s : State) : Flows s s := ⟨rfl, List.suffix_rfl, [], by simp, by simp⟩

section
variable {s t u : State}

theorem Flows.trans (h : Flows s t) (h' : Flows t u) : Flows s u := by
  obtain ⟨out, hout, hmon⟩ := h.sent
  obtain ⟨out', hout', hmon'⟩ := h'.sent
  exact ⟨h'.params.trans h.params, h'.queue.trans h.queue, out ++ out', by simp [hout', hout], by simp [hmon', hmon]⟩

/-- An update of other fields. -/
theorem Flows.silent (h : Flows s t) (e : link u = link t) : Flows s u := by
  obtain ⟨hcfg, hrxq, htxOut, hmon⟩ : u.cfg = t.cfg ∧ u.rxq = t.rxq ∧ u.txOut = t.txOut ∧ u.mon = t.mon := by
    simpa [link] using e
  exact ⟨hcfg ▸ h.params, hrxq ▸ h.queue, htxOut ▸ hmon ▸ h.sent⟩

theorem flows_taken {b : Byte} {rest : List Byte} (hq : s.rxq = b :: rest) : Flows s (s.taken b rest) :=
  ⟨rfl, ⟨[b], hq.symm⟩, [], by simp, (sentBytes_append s.mon (rxTrace [b])).trans (by simp)⟩

theorem flows_drain (s : State) : Flows s s.drain :=
  ⟨rfl, List.nil_suffix, [], by simp, (sentBytes_append s.mon (rxTrace s.rxq)).trans (by simp)⟩

theorem Flows.emitSeq (h : Flows s t) (bs : List Byte) : Flows s (t.emitSeq bs) :=
  h.trans ⟨rfl, List.suffix_rfl, bs, rfl, (sentBytes_append t.mon (txTrace bs)).trans (by simp)⟩

theorem Flows.emit (h : Flows s t) (b : Byte) : Flows s (t.emit b) := h.emitSeq [b]

theorem Flows.noteAnswer (h : Flows s t) (b : Byte) : Flows s (t.noteAnswer b) := by
  obtain ⟨r, e⟩ := noteAnswer_eq t b
  rw [e]
  exact h.silent rfl

/-- A retransmission is a sent unit, and a failure sends nothing (R181, R182). -/
theorem Flows.retryOrFail (h : Flows s t) (unit : List Byte) : Flows s (t.retryOrFail unit) := by
  obtain ⟨-, e⟩ | ⟨-, e⟩ := retryOrFail_cases t unit
  · rw [e]
    exact (h.emitSeq unit).silent rfl
  · rw [e]
    exact h.silent rfl

end

/-! ### Every event is a flow -/

theorem flows_of_event {i : Instr} {s t : State} (hi : grainOf i = .event) (h : exec i s = .next t) : Flows s t := by
  cases i with
  | rxIdleSel => obtain ⟨rest, ⟨hq, -⟩, rfl⟩ := execRxIdleSel_next h; exact (flows_taken hq).silent rfl
  | rxIdleSoh => obtain ⟨rest, ⟨hq, -⟩, rfl⟩ := execRxIdleSoh_next h; exact (flows_taken hq).silent rfl
  | rxIdleOther b => obtain ⟨rest, ⟨hq, -⟩, rfl⟩ := execRxIdleOther_next h; exact (flows_taken hq).silent rfl
  | rxSelectByte b =>
    obtain ⟨rest, ⟨hq, -⟩, -, ⟨-, rfl⟩ | ⟨-, _, -, ⟨-, rfl⟩ | ⟨-, rfl⟩⟩⟩ := execRxSelectByte_next h
    · exact (flows_taken hq).silent rfl
    · exact ((flows_taken hq).emit ACK).silent rfl
    · exact (flows_taken hq).silent rfl
  | rxHeaderByte b =>
    obtain ⟨rest, ⟨hq, -⟩, -, ⟨rfl, -⟩ | ⟨_, -, -, ⟨-, l, -, rfl⟩ | ⟨-, rfl⟩⟩⟩ := execRxHeaderByte_next h
    · exact (flows_taken hq).silent rfl
    · exact ((flows_taken hq).emit ACK).silent rfl
    · exact ((flows_taken hq).emit NAK).silent rfl
  | rxHcStx => obtain ⟨rest, ⟨hq, -⟩, rfl⟩ := execRxHcStx_next h; exact (flows_taken hq).silent rfl
  | rxHcOther b => obtain ⟨rest, ⟨hq, -⟩, rfl⟩ := execRxHcOther_next h; exact (flows_taken hq).silent rfl
  | rxDataByte b =>
    obtain ⟨rest, _, ⟨hq, -⟩, -, -, ⟨-, rfl⟩ | ⟨-, ⟨-, rfl⟩ | ⟨-, rfl⟩⟩⟩ := execRxDataByte_next h
    · exact (flows_taken hq).silent rfl
    · exact ((flows_taken hq).emit ACK).silent rfl
    · exact ((flows_taken hq).emit NAK).silent rfl
  | rxAeEnq => obtain ⟨rest, ⟨hq, -⟩, rfl⟩ := execRxAeEnq_next h; exact (flows_taken hq).emit ACK
  | rxAeEot =>
    obtain ⟨rest, l, payload, ⟨hq, -⟩, -, -, rfl⟩ := execRxAeEot_next h
    obtain ⟨-, e⟩ | ⟨-, e⟩ := dispatch_cases ((s.taken EOT rest).closeFrame .headerComplete) l payload <;> rw [e] <;>
      exact (flows_taken hq).silent rfl
  | rxAeOther b => obtain ⟨rest, ⟨hq, -⟩, rfl⟩ := execRxAeOther_next h; exact (flows_taken hq).silent rfl
  | cmdDone => obtain ⟨-, -, -, rfl⟩ := execCmdDone_next h; exact (Flows.refl s).silent rfl
  | cmdSend dest src fnc size bytes =>
    obtain ⟨-, -, -, -, -, -, rfl⟩ := execCmdSend_next h
    exact ((flows_drain s).emitSeq (sendHeader s.cfg dest src fnc size)).silent rfl
  | txHdrAck =>
    obtain ⟨rest, ⟨hq, -⟩, rfl⟩ := execTxHdrAck_next h
    exact ((flows_taken hq).emitSeq s.txDat).silent rfl
  | txHdrOther b =>
    obtain ⟨-, rest, ⟨hq, -⟩, rfl⟩ := execTxHdrOther_next h
    exact ((flows_taken hq).noteAnswer b).retryOrFail s.txHdr
  | txTimeout =>
    obtain ⟨-, -, ⟨-, rfl⟩ | ⟨-, rfl⟩⟩ := execTxTimeout_next h <;>
      exact ((Flows.refl s).silent (u := s.report .noAnswerTimeout) rfl).retryOrFail _
  | txDataAck =>
    obtain ⟨rest, ⟨hq, -⟩, rfl⟩ := execTxDataAck_next h
    exact ((flows_taken hq).emit EOT).silent rfl
  | txDataOther b =>
    obtain ⟨-, rest, ⟨hq, -⟩, rfl⟩ := execTxDataOther_next h
    exact ((flows_taken hq).noteAnswer b).retryOrFail s.txDat
  | envLinkFail =>
    obtain ⟨-, rfl⟩ := execEnvLinkFail_next h
    obtain ⟨-, e⟩ | ⟨-, e⟩ := die_cases s <;> rw [e] <;> exact (Flows.refl s).silent rfl
  | envReset =>
    cases h
    exact ⟨rfl, List.nil_suffix, (Flows.refl s).sent⟩
  | _ => cases hi

theorem flows_of_exec {i : Instr} {s t : State} (h : exec i s = .next t) : Flows s t :=
  exec_respects Flows.refl (fun _ _ _ => Flows.trans) (fun _ _ _ => flows_of_event) i s t h

/-! ### The statements -/

/-- Settles O50: every instruction is a flow. -/
theorem streamsInOrder : Obligations.StreamsInOrder := by
  intro i s t h
  have hflow := flows_of_exec h
  obtain ⟨out, hout, -⟩ := hflow.sent
  exact ⟨⟨out, hout.symm⟩, hflow.queue⟩

/-- Settles O45: no instruction writes the parameters, and neither does the master. -/
theorem registryConstant : Obligations.RegistryConstant := fun _ _ h =>
  step_respects (R := fun s t => t.cfg = s.cfg) (fun _ _ _ h => (flows_of_exec h).params) (fun _ _ => rfl)
    (fun _ _ _ => id) h

/-- Settles O53: what an instruction adds to `TXOUT` it adds to what `MON` records as sent. -/
theorem sentBytesRecorded : Obligations.SentBytesRecorded := by
  intro s t hmon h
  refine step_respects (R := fun s t => sentBytes s.mon = s.txOut → sentBytes t.mon = t.txOut) (fun i s t h hmon => ?_)
    (fun _ _ => id) (fun _ _ _ => id) h hmon
  obtain ⟨out, hout, hsent⟩ := (flows_of_exec h).sent
  rw [hsent, hout, hmon]

end Sys2Proof.Streams
end

section
/-! PROOFS of the statements about who touches the parser and the `REQ` port: only an EOT dispatches (R146, R150), while a
SEND is in progress the parser is frozen (R185), and a stored byte changes one offset of `BUF` (R57). -/

namespace Sys2Proof.ParserWrites

open Sys2Proof.Machine Sys2Proof.Stmt Sys2Proof.Lift

/-! ### The parser's part of the state -/

/-- The parse state, the buffer, the latches, the records on the `REQ` port and `BUSY`. -/
structure Parser where
  rxs : RxState
  buf : Memory
  latches : Option HeaderLatch
  reqOut : List Request
  busy : Bool

/-- The parser's part of a state. -/
def parser (s : State) : Parser := ⟨s.rxs, s.buf, s.latches, s.reqOut, s.busy⟩

theorem parser_eq_iff {s t : State} :
    parser t = parser s ↔
      t.rxs = s.rxs ∧ t.buf = s.buf ∧ t.latches = s.latches ∧ t.reqOut = s.reqOut ∧ t.busy = s.busy := by
  simp [parser]

theorem parser_noteAnswer (s : State) (b : Byte) : parser (s.noteAnswer b) = parser s := by
  obtain ⟨r, e⟩ := noteAnswer_eq s b
  rw [e]
  rfl

theorem txOut_noteAnswer (s : State) (b : Byte) : (s.noteAnswer b).txOut = s.txOut := by
  obtain ⟨r, e⟩ := noteAnswer_eq s b
  rw [e]
  rfl

theorem parser_retryOrFail (s : State) (unit : List Byte) : parser (s.retryOrFail unit) = parser s := by
  obtain ⟨-, e⟩ | ⟨-, e⟩ := retryOrFail_cases s unit <;> rw [e] <;> rfl

theorem txOut_retryOrFail (s : State) (unit : List Byte) :
    (s.retryOrFail unit).txOut = s.txOut ∨ (s.retryOrFail unit).txOut = s.txOut ++ unit := by
  obtain ⟨-, e⟩ | ⟨-, e⟩ := retryOrFail_cases s unit
  · exact .inr (by rw [e])
  · exact .inl (by rw [e])

theorem parser_die (s : State) : parser s.die = parser s := by
  obtain ⟨-, e⟩ | ⟨-, e⟩ := die_cases s <;> rw [e] <;> rfl

theorem txOut_die (s : State) : s.die.txOut = s.txOut := by
  obtain ⟨-, e⟩ | ⟨-, e⟩ := die_cases s <;> rw [e]

/-! ### While a SEND is in progress (R185) -/

/-- What an event may put on the link while a SEND is in progress. -/
def SendOutput (s t : State) : Prop :=
  t.txOut = s.txOut ∨ t.txOut = s.txOut ++ s.txHdr ∨ t.txOut = s.txOut ++ s.txDat ∨ t.txOut = s.txOut ++ [EOT]

/-- No receive event and no command of the device is enabled; the sender's events and the link failure leave the parser
alone. -/
theorem frozen_of_event {i : Instr} {s t : State} (hi : isEvent i = true) (hb : s.busy = true) (ht : s.txs ≠ .txIdle)
    (hreset : i ≠ .envReset) (h : exec i s = .next t) : parser t = parser s ∧ SendOutput s t := by
  have henabled := enabled_of_exec hi h
  cases i with
  | rxIdleSel | rxIdleSoh | rxSelectByte | rxHeaderByte | rxHcStx | rxDataByte | rxAeEnq | rxAeEot =>
    obtain ⟨-, -, hidle, -⟩ := henabled
    cases hb.symm.trans hidle
  | rxIdleOther | rxAeOther =>
    obtain ⟨-, -, -, -, hidle, -⟩ := henabled
    cases hb.symm.trans hidle
  | rxHcOther =>
    obtain ⟨-, -, -, hidle, -⟩ := henabled
    cases hb.symm.trans hidle
  | cmdDone | cmdSend =>
    obtain ⟨-, -, hidle⟩ := henabled
    exact absurd hidle ht
  | txHdrAck =>
    obtain ⟨rest, -, rfl⟩ := execTxHdrAck_next h
    exact ⟨rfl, .inr (.inr (.inl rfl))⟩
  | txHdrOther b =>
    obtain ⟨-, rest, -, rfl⟩ := execTxHdrOther_next h
    have hout := txOut_retryOrFail ((s.taken b rest).noteAnswer b) s.txHdr
    rw [txOut_noteAnswer] at hout
    exact ⟨(parser_retryOrFail _ _).trans (parser_noteAnswer _ b), hout.imp_right .inl⟩
  | txTimeout =>
    obtain ⟨-, -, ⟨-, rfl⟩ | ⟨-, rfl⟩⟩ := execTxTimeout_next h
    · exact ⟨parser_retryOrFail _ _, (txOut_retryOrFail (s.report .noAnswerTimeout) s.txHdr).imp_right .inl⟩
    · exact ⟨parser_retryOrFail _ _,
        (txOut_retryOrFail (s.report .noAnswerTimeout) s.txDat).imp_right fun h => .inr (.inl h)⟩
  | txDataAck =>
    obtain ⟨rest, -, rfl⟩ := execTxDataAck_next h
    exact ⟨rfl, .inr (.inr (.inr rfl))⟩
  | txDataOther b =>
    obtain ⟨-, rest, -, rfl⟩ := execTxDataOther_next h
    have hout := txOut_retryOrFail ((s.taken b rest).noteAnswer b) s.txDat
    rw [txOut_noteAnswer] at hout
    exact ⟨(parser_retryOrFail _ _).trans (parser_noteAnswer _ b), hout.imp_right fun h => .inr (.inl h)⟩
  | envLinkFail =>
    obtain ⟨-, rfl⟩ := execEnvLinkFail_next h
    exact ⟨parser_die s, .inl (txOut_die s)⟩
  | envReset => exact absurd rfl hreset
  | _ => cases hi

/-- With `BUSY = 1` a byte is consumed only while a SEND is in progress (R43), also in the middle of a frame. -/
theorem parser_consumeByte {b : Byte} {s t : State} (hb : s.busy = true) (h : consumeByte b s = .next t) :
    parser t = parser s := by
  obtain ⟨hc, i, hi, hreset, hexec⟩ := consumeByte_next h
  obtain ⟨-, hconsumer⟩ := (canConsume_iff s).1 hc
  have ht : s.txs ≠ .txIdle := hconsumer.resolve_left (by simp [hb])
  exact (frozen_of_event hi hb ht hreset hexec).1

theorem busy_of_parser_eq {s t : State} (h : parser t = parser s) (hb : s.busy = true) : t.busy = true :=
  (congrArg Parser.busy h).trans hb

/-- Settles O49: an event of the sender leaves the parser alone, and any other instruction is bytes that the sender
consumes one after the other. -/
theorem sendFreezesParser : Obligations.SendFreezesParser := by
  intro i s t hb ht hreset h
  have hfrozen : parser t = parser s := by
    cases hi : isEvent i with
    | true => exact (frozen_of_event hi hb ht hreset h).1
    | false =>
      exact exec_respects_of_consumeByte (R := fun s t => s.busy = true → parser t = parser s) (fun _ _ => rfl)
        (fun _ _ _ hab hbc hbusy => (hbc (busy_of_parser_eq (hab hbusy) hbusy)).trans (hab hbusy))
        (fun _ _ _ h hbusy => parser_consumeByte hbusy h) hi h hb
  obtain ⟨hrxs, hbuf, hlatches, hreq, hbusy⟩ := parser_eq_iff.1 hfrozen
  exact ⟨hrxs, hbuf, hlatches, hreq, hbusy.trans hb, fun hi => (frozen_of_event hi hb ht hreset h).2⟩

/-! ### The `REQ` port (R146, R150) -/

/-- No event but RX.AE.EOT writes the history of the `REQ` port. -/
theorem reqOut_of_event {i : Instr} {s t : State} (hi : isEvent i = true) (hne : i ≠ .rxAeEot)
    (h : exec i s = .next t) : t.reqOut = s.reqOut := by
  cases i with
  | rxIdleSel => obtain ⟨rest, -, rfl⟩ := execRxIdleSel_next h; rfl
  | rxIdleSoh => obtain ⟨rest, -, rfl⟩ := execRxIdleSoh_next h; rfl
  | rxIdleOther b => obtain ⟨rest, -, rfl⟩ := execRxIdleOther_next h; rfl
  | rxSelectByte b =>
    obtain ⟨rest, -, -, ⟨-, rfl⟩ | ⟨-, _, -, ⟨-, rfl⟩ | ⟨-, rfl⟩⟩⟩ := execRxSelectByte_next h <;> rfl
  | rxHeaderByte b =>
    obtain ⟨rest, -, -, ⟨rfl, -⟩ | ⟨_, -, -, ⟨-, l, -, rfl⟩ | ⟨-, rfl⟩⟩⟩ := execRxHeaderByte_next h <;> rfl
  | rxHcStx => obtain ⟨rest, -, rfl⟩ := execRxHcStx_next h; rfl
  | rxHcOther b => obtain ⟨rest, -, rfl⟩ := execRxHcOther_next h; rfl
  | rxDataByte b =>
    obtain ⟨rest, _, -, -, -, ⟨-, rfl⟩ | ⟨-, ⟨-, rfl⟩ | ⟨-, rfl⟩⟩⟩ := execRxDataByte_next h <;> rfl
  | rxAeEnq => obtain ⟨rest, -, rfl⟩ := execRxAeEnq_next h; rfl
  | rxAeEot => exact absurd rfl hne
  | rxAeOther b => obtain ⟨rest, -, rfl⟩ := execRxAeOther_next h; rfl
  | cmdDone => obtain ⟨-, -, -, rfl⟩ := execCmdDone_next h; rfl
  | cmdSend => obtain ⟨-, -, -, -, -, -, rfl⟩ := execCmdSend_next h; rfl
  | txHdrAck => obtain ⟨rest, -, rfl⟩ := execTxHdrAck_next h; rfl
  | txHdrOther b =>
    obtain ⟨-, rest, -, rfl⟩ := execTxHdrOther_next h
    exact congrArg Parser.reqOut ((parser_retryOrFail _ _).trans (parser_noteAnswer (s.taken b rest) b))
  | txTimeout =>
    obtain ⟨-, -, ⟨-, rfl⟩ | ⟨-, rfl⟩⟩ := execTxTimeout_next h <;>
      exact congrArg Parser.reqOut (parser_retryOrFail (s.report .noAnswerTimeout) _)
  | txDataAck => obtain ⟨rest, -, rfl⟩ := execTxDataAck_next h; rfl
  | txDataOther b =>
    obtain ⟨-, rest, -, rfl⟩ := execTxDataOther_next h
    exact congrArg Parser.reqOut ((parser_retryOrFail _ _).trans (parser_noteAnswer (s.taken b rest) b))
  | envLinkFail =>
    obtain ⟨-, rfl⟩ := execEnvLinkFail_next h
    exact congrArg Parser.reqOut (parser_die s)
  | envReset => cases h; rfl
  | _ => cases hi

/-- Settles O48: the EOT opens the window for a registered destination or reports it, and no other event writes the port. -/
theorem onlyEotDispatches : Obligations.OnlyEotDispatches := by
  intro i s t hi h
  by_cases heot : i = .rxAeEot
  · subst heot
    obtain ⟨rest, l, payload, ⟨-, -, -, hr⟩, hlatch, hread, rfl⟩ := execRxAeEot_next h
    obtain ⟨hreg, e⟩ | ⟨-, e⟩ := dispatch_cases ((s.taken EOT rest).closeFrame .headerComplete) l payload
    · rw [e]
      exact .inr ⟨rfl, hr, rfl, rfl, l, payload, hlatch, hreg, Memory.readSeq_length hread, rfl⟩
    · rw [e]
      exact .inl rfl
  · exact .inl (reqOut_of_event hi heot h)

/-! ### A stored byte (R57) -/

/-- An append changes no other offset: it is below the length, or it holds no byte before and after. -/
theorem read_append_ne {m : Memory} (h : m.wf) (b : Byte) {a : Nat} (ha : a ≠ m.length) :
    (m.append b).read a = m.read a := by
  obtain hlt | hgt := Nat.lt_or_gt_of_ne ha
  · exact Memory.read_append_below h b hlt
  · rw [Memory.read_of_wf (Memory.wf_append h b), Memory.read_of_wf h, Memory.bytes_append,
      List.getElem?_eq_none (by simpa using hgt), List.getElem?_eq_none (by simpa using hgt.le)]

/-- An accumulating event that does not end its frame appends the byte: every end of a frame changes the parse state. -/
theorem buf_eq_append {i : Instr} {b : Byte} {s t : State}
    (hi : i = .rxSelectByte b ∨ i = .rxHeaderByte b ∨ i = .rxDataByte b) (h : exec i s = .next t)
    (hrxs : t.rxs = s.rxs) : t.buf = s.buf.append b := by
  obtain rfl | rfl | rfl := hi
  · obtain ⟨rest, ⟨-, -, -, hr⟩, -, ⟨-, rfl⟩ | ⟨-, _, -, ⟨-, rfl⟩ | ⟨-, rfl⟩⟩⟩ := execRxSelectByte_next h
    · rfl
    · cases hrxs.trans hr
    · cases hrxs.trans hr
  · obtain ⟨rest, ⟨-, -, -, hr⟩, -, ⟨rfl, -⟩ | ⟨_, -, -, ⟨-, l, -, rfl⟩ | ⟨-, rfl⟩⟩⟩ := execRxHeaderByte_next h
    · rfl
    · cases hrxs.trans hr
    · cases hrxs.trans hr
  · obtain ⟨rest, _, ⟨-, -, -, hr⟩, -, -, ⟨-, rfl⟩ | ⟨-, ⟨-, rfl⟩ | ⟨-, rfl⟩⟩⟩ := execRxDataByte_next h
    · rfl
    · cases hrxs.trans hr
    · cases hrxs.trans hr

/-- Settles O51: the buffer afterwards is the one append. -/
theorem appendChangesOneByte : Obligations.AppendChangesOneByte := by
  intro i b s t hi hwf h hrxs
  rw [buf_eq_append hi h hrxs]
  exact ⟨Memory.read_append_at hwf b, Memory.length_append s.buf b, fun a ha => read_append_ne hwf b ha⟩

end Sys2Proof.ParserWrites
end

section
/-! PROOFS of the rows of files 42, 43, 60 and 70 that were left, and of the turns that have no step: a data byte (R142 to
R144), the end marker (R146, R150, R151), the device's commands (R152, R171 to R175), an answer that is no ACK (R177, R180),
link failure and reset (R206, R230). -/

namespace Sys2Proof.Rows

open Sys2Proof.Machine Sys2Proof.Stmt Sys2Proof.Lift

/-! ### `Data` and `AwaitingEnd` (R142 to R147) -/

/-- Settles O18: the byte is taken and stored, and the test after it finds the frame short or whole. -/
theorem dataByteStoredAckedOrNaked : Obligations.DataByteStoredAckedOrNaked := by
  intro s b rest bs l hready hbuf hl hlatch
  have hstored : exec (.rxDataByte b) s = dataCheck ((s.taken b rest).setBuf (Memory.ofBytes (bs ++ [b]))) :=
    (IdleSelect.rxEvent_of_ready _ hready).trans (IdleSelect.appendByte_of_ofBytes (s := s.taken b rest) b _ hbuf hl)
  rw [hstored]
  split
  · next hshort => exact RxData.dataCheck_of_not_whole hlatch rfl (by simpa using hshort)
  · next hwhole =>
    have hlen : (bs ++ [b]).length = l.size.toNat + 3 := by simpa using hwhole
    rw [RxData.dataCheck_of_whole (s := (s.taken b rest).setBuf (Memory.ofBytes (bs ++ [b]))) hlatch rfl hlen]
    split <;> simp [State.taken, State.setBuf, State.emit, State.setRxs, State.raise, State.report]

/-- Settles O20: the end marker closes the frame, and dispatch is one of its two cases. -/
theorem eotDispatchesRequest : Obligations.EotDispatchesRequest := by
  intro s rest bs l hready hlatch hbuf hlen
  refine (RxData.execRxAeEot_of_ready hready hlatch hbuf hlen).trans (congrArg Host.Outcome.next ?_)
  obtain ⟨hreg, e⟩ | ⟨hreg, e⟩ :=
    dispatch_cases ((s.taken EOT rest).closeFrame .headerComplete) l ((bs.drop 1).take l.size.toNat)
  · exact e.trans (if_pos hreg).symm
  · exact e.trans (if_neg hreg).symm

/-- Settles O21: neither ENQ nor EOT, so the default row is not excluded, and it reports E5 (R205). -/
theorem awaitingEndDropsOthers : Obligations.AwaitingEndDropsOthers := by
  intro s b rest henq heot hready
  have hdefault : b ∉ [ENQ, EOT] := by simp [henq, heot]
  exact (exceptBytes_of_notMem _ hdefault).trans (IdleSelect.rxEvent_of_ready _ hready)

/-! ### The device's commands (R152, R171 to R175) -/

/-- Settles O22: the window is open, and DONE closes it. -/
theorem doneClosesWindow : Obligations.DoneClosesWindow := fun s ha hb ht =>
  if_pos ((windowOpen_iff s).2 ⟨ha, hb, ht⟩)

theorem sendOperandsOk_iff {size : Size} {bytes : List Byte} :
    sendOperandsOk size bytes = true ↔ 1 ≤ size.toNat ∧ size.toNat ≤ 65536 ∧ bytes.length = size.toNat := by
  simp [sendOperandsOk, and_assoc]

/-- Settles O25: the operands are tested in the open window. -/
theorem illegalSendRefused : Obligations.IllegalSendRefused := by
  intro s dest src fnc size bytes ha hb ht hillegal
  have hno : ¬ sendOperandsOk size bytes = true := by
    rw [sendOperandsOk_iff]
    omega
  exact (if_pos ((windowOpen_iff s).2 ⟨ha, hb, ht⟩)).trans (if_neg hno)

/-- A SEND's data frame is that of R174 computed in the naturals. -/
theorem sendData_eq_txDataOf (bytes : List Byte) : sendData bytes = txDataOf bytes := by
  obtain ⟨-, -, hcks⟩ := Encoding.checksumByteUnique (dataBody bytes) 0#8
  rw [sendData, withCks, hcks]
  rfl

/-- Settles O24: in the window with legal operands the queue is drained and the header sent; both frames are those of R173
and R174. -/
theorem sendDrainsAndSendsHeader : Obligations.SendDrainsAndSendsHeader := by
  intro s dest src fnc size bytes ha hb ht hmin hmax hlen
  rw [← RxHeader.sendHeader_eq_txHeaderOf s.cfg dest src fnc hmin hmax, ← sendData_eq_txDataOf]
  exact (if_pos ((windowOpen_iff s).2 ⟨ha, hb, ht⟩)).trans (if_pos (sendOperandsOk_iff.2 ⟨hmin, hmax, hlen⟩))

/-! ### An answer that is no ACK (R177, R180 to R182) -/

/-- The report of a non-ACK byte is "no answer" or E7 (90_conflicts.md C6). -/
theorem noteAnswer_eq_report (s : State) (b : Byte) : s.noteAnswer b = s.report (answerReport b) :=
  (apply_ite s.report (b = NAK ∨ b = EOT ∨ b = ETX) (.noAnswer b) (.error (.unexpectedHandshake b))).symm

/-- The default row of a phase `p` whose unit is `unit`: the byte is taken and reported, and the unit is sent again, or in
round 4 the SEND fails. -/
theorem answer_retries_or_fails {s : State} {p : TxState} {b : Byte} {rest : List Byte} (unit : State → List Byte)
    (hunit : unit (s.taken b rest) = unit s) (hack : b ≠ ACK) (hready : SenderReady s p b rest) :
    exceptBytes [ACK] b (txEvent p b (fun s => .next ((s.noteAnswer b).retryOrFail (unit s))) s) = .next
      (if s.txRound.toNat < 4 then
        { s with rxq := rest, mon := s.mon ++ [(.rx, b)] ++ txTrace (unit s), txOut := s.txOut ++ unit s
                 diag := s.diag ++ [answerReport b], txRound := s.txRound + 1#3 }
      else
        { s with rxq := rest, mon := s.mon ++ [(.rx, b)]
                 diag := s.diag ++ [answerReport b, .error (.sendFailure p)]
                 txStatus := .fail, txs := .txIdle, statusOut := s.statusOut ++ [.fail] }) := by
  obtain ⟨ha, ht, hq⟩ := hready
  have hdefault : b ∉ [ACK] := by simp [hack]
  rw [exceptBytes_of_notMem _ hdefault, txEvent_enabled _ ha ht hq, hunit, noteAnswer_eq_report,
    TxSend.retryOrFail_eq_ite]
  simp [State.taken, State.report, ht]

/-- Settles O27: the default row of the header wait, whose unit is the header. -/
theorem headerRetryOrFail : Obligations.HeaderRetryOrFail :=
  fun _ _ _ hack hready => answer_retries_or_fails State.txHdr rfl hack hready

/-- Settles O28: the default row of the data wait, whose unit is the data frame. -/
theorem dataRetryOrFail : Obligations.DataRetryOrFail :=
  fun _ _ _ hack hready => answer_retries_or_fails State.txDat rfl hack hready

/-! ### Link failure and reset (R206, R230) -/

/-- Settles O33: with `ALIVE = 1` the link failure is enabled, and it tests only whether a SEND is in progress. -/
theorem linkFailureKills : Obligations.LinkFailureKills := fun _ ha => if_pos ha

/-- Settles O34: RESET writes its values in every state, the three free ones from the model's own draw. -/
theorem resetEventRestoresIdle : Obligations.ResetEventRestoresIdle := fun s =>
  ⟨Config.freeRound s.freeCount, Config.freeHdr s.freeCount, Config.freeDat s.freeCount, s.freeCount + 1, rfl⟩

/-- Settles O35: the values of R41, read off the reset state. -/
theorem resetStateValues : Obligations.ResetStateValues := ⟨rfl, rfl, rfl, rfl, rfl, rfl, rfl, rfl, rfl, rfl⟩

/-- The commands of the device, the timeout and the link failure need `ALIVE = 1` (R36 to R38). -/
theorem command_eq_reset_of_dead {c : Command} {s t : State} (hdead : s.alive = false)
    (h : exec (decodeCommand c) s = .next t) : c = .reset := by
  cases c with
  | reset => rfl
  | done | send | timeout =>
    obtain ⟨ha, -⟩ := enabled_of_exec rfl h
    cases hdead.symm.trans ha
  | linkFail => cases hdead.symm.trans (enabled_of_exec rfl h)

theorem canConsume_of_dead {s : State} (hdead : s.alive = false) : s.canConsume = false := by
  by_contra hc
  obtain ⟨ha, -⟩ := (canConsume_iff s).1 (Bool.eq_true_of_not_eq_false hc)
  cases hdead.symm.trans ha

/-- A framer's turn that fetches something finds the block alive (R43). -/
theorem not_fetch_of_dead {s : State} {g : Grain} {i : Instr} (hdead : s.alive = false) : s.fetch g ≠ .instr i := by
  intro hf
  obtain ⟨hc, -⟩ := Scope.fetch_eq_instr_iff.1 hf
  cases (canConsume_of_dead hdead).symm.trans hc

/-- Settles O54: of the turns only the command RESET is enabled. -/
theorem deadUntilReset : Obligations.DeadUntilReset := by
  intro s t hdead h
  obtain ⟨b, sc, -, ha, -⟩ | ⟨c, sc, hs, hc⟩ | ⟨g, sc, i, -, hf, -⟩ | ⟨i, -, hf, -⟩ := step_next h
  · cases hdead.symm.trans ha
  · obtain rfl := command_eq_reset_of_dead (s := s.withScript sc) hdead hc
    cases hc
    exact ⟨rfl, rfl, sc, hs⟩
  · exact absurd hf (not_fetch_of_dead hdead)
  · exact absurd hf (not_fetch_of_dead hdead)

/-! ### Turns that have no step (R11, R43, R252) -/

theorem fetch_of_nothing_queued {s : State} {g : Grain} (hq : s.rxq = []) : s.fetch g = .reject .noByteQueued := by
  unfold State.fetch
  rw [hq]
  split
  · cases g <;> rfl
  · rfl

theorem fetch_of_no_consumer {s : State} {g : Grain} (hq : s.rxq ≠ []) (hc : s.canConsume = false) :
    s.fetch g = .reject .noConsumer := by
  simp [State.fetch, hc, hq]

theorem turn_of_reject {s : State} {g : Grain} {why : Reject} (h : s.fetch g = .reject why) :
    s.turn (.receive g) = .refused (.noStep why) := by
  simp only [State.turn, h]

/-- Settles O7: the framer's turn fetches nothing from an empty queue, nor where nobody consumes. -/
theorem noConsumerNoStep : Obligations.NoConsumerNoStep := by
  intro s g sc hs
  rw [Scope.step_of_script hs]
  refine ⟨fun hq => turn_of_reject (fetch_of_nothing_queued hq), fun hq _ hb ht => ?_, fun hq hdead => ?_⟩
  · have hc : s.canConsume = false := by
      rw [Bool.eq_false_iff, Ne, canConsume_iff]
      simp [hb, ht]
    exact turn_of_reject (fetch_of_no_consumer (s := s.withScript sc) hq hc)
  · exact turn_of_reject (fetch_of_no_consumer (s := s.withScript sc) hq (canConsume_of_dead hdead))

/-- Settles O55: a quiescent block has an empty queue, and without a script the framer's turn comes. -/
theorem quiescentHasNoStep : Obligations.QuiescentHasNoStep := by
  intro s hquiet hs
  have hq : s.rxq = [] := by
    simp only [State.quiescent, Bool.and_eq_true, decide_eq_true_eq] at hquiet
    obtain ⟨⟨-, hq⟩, -⟩ := hquiet
    exact hq
  rw [Scope.step_of_emptyScript hs]
  exact turn_of_reject (fetch_of_nothing_queued hq)

end Sys2Proof.Rows
end
